-- ==== Sys2Proof/Word.lean ====
section
/-! DEFINITION. The words of the FDC: bytes, buffers, the 32-bit command word, and the names of the command word's
fields (spec/00_scope.md R8, R9, R13; spec/30_encoding.md R100, R101). -/

namespace Sys2Proof

/-- A byte, bit 0 the least significant (R8, R9). -/
abbrev Byte := BitVec 8

/-- A 32-bit word: a command word (R100) or a configuration register (R34 to R38, R44). -/
abbrev Word := BitVec 32

/-- A buffer: a finite list of bytes, index 0 the first byte on the wire; no length bound (R7, R8). -/
abbrev Buffer := List Byte

/-- `ORD`: most significant byte first, or least significant byte first (R10, R101). -/
inductive Order where
  | be
  | le
  deriving DecidableEq, Repr

/-- `G16`: the 8-bit or the 16-bit grid; no other is encodable (R101). -/
inductive Grid where
  | g8
  | g16
  deriving DecidableEq, Repr

/-- The action code `a`: R = 0, W = 1, E = 2 (R13). -/
inductive Action where
  | r
  | w
  | e
  deriving DecidableEq, Repr

end Sys2Proof
end

