-- ==== Sys2Proof/Syntax.lean ====
section
/-! DEFINITION. The command set FDC-1: one constructor per row of spec/opcode_table.json, carrying exactly the word
fields the row admits (spec/30_encoding.md R107). Every other input of a command stands in its operand record
(R101, R104; `Sys2Proof/Machine/Value.lean`). -/

namespace Sys2Proof

/-- The 31 commands of R107. -/
inductive Instr where
  /-- R801, OP 0x01. -/
  | setconst
  /-- R802, OP 0x02. -/
  | setstaff
  /-- R803, OP 0x03. -/
  | setcrc
  /-- R804, OP 0x04. -/
  | setlen
  /-- R805, OP 0x05, ACT. -/
  | setfmt (a : Action)
  /-- R806, OP 0x06, ACT. -/
  | setcrclist (a : Action)
  /-- R807, OP 0x07, ACT. -/
  | setlenlist (a : Action)
  /-- R808, OP 0x08. -/
  | setmax
  /-- R809, OP 0x09. -/
  | status
  /-- R810, OP 0x0A. -/
  | reset
  /-- R200, OP 0x10. -/
  | type
  /-- R210, OP 0x11. -/
  | lenbit
  /-- R220, OP 0x12, ORD. -/
  | write (ord : Order)
  /-- R228, OP 0x13, ORD and G16. -/
  | check (ord : Order) (grid : Grid)
  /-- R250, OP 0x14. -/
  | hexdec
  /-- R260, OP 0x15. -/
  | durparse
  /-- R300, OP 0x20, G16. -/
  | countbit (grid : Grid)
  /-- R310, OP 0x21, ORD. -/
  | pack8 (ord : Order)
  /-- R320, OP 0x22, ORD. -/
  | pack16 (ord : Order)
  /-- R400, OP 0x30. -/
  | commit
  /-- R510, OP 0x40, EOS and ACT. -/
  | splitse (eos : Bool) (a : Action)
  /-- R520, OP 0x41, EOS and ACT. -/
  | splitlen (eos : Bool) (a : Action)
  /-- R601, OP 0x50. -/
  | stuff
  /-- R602, OP 0x51. -/
  | unstuff
  /-- R700, OP 0x60. -/
  | mod256
  /-- R710, OP 0x61, ORD. -/
  | crc16 (ord : Order)
  /-- R720, OP 0x62. -/
  | chksum
  /-- R730, OP 0x63, ACT. -/
  | calclen (a : Action)
  /-- R740, OP 0x64, ACT. -/
  | calccrc (a : Action)
  /-- R750, OP 0x65, ACT. -/
  | build (a : Action)
  /-- R760, OP 0x66, ACT. -/
  | verify (a : Action)
  deriving DecidableEq, Repr

end Sys2Proof
end

