-- ==== Sys2Proof/Decode.lean ====
section
/-! DEFINITION. The command-word decoder, total on all 2^32 words, and the encoder
(spec/30_encoding.md R100 to R103, R107, R108; spec/opcode_table.json). -/

namespace Sys2Proof

/-- One row of the opcode map R107: its mnemonic, its OP byte, which word fields it admits, and the command it names
for given field values. -/
structure OpRow where
  mnemonic : String
  op : Byte
  admitsOrd : Bool
  admitsG16 : Bool
  admitsEos : Bool
  admitsAct : Bool
  build : Order → Grid → Bool → Action → Instr

/-- The rows of R107 that admit no field. -/
def plainRow (m : String) (op : Byte) (i : Instr) : OpRow := ⟨m, op, false, false, false, false, fun _ _ _ _ => i⟩

/-- The rows of R107 that admit ORD alone. -/
def ordRow (m : String) (op : Byte) (f : Order → Instr) : OpRow := ⟨m, op, true, false, false, false, fun o _ _ _ => f o⟩

/-- The rows of R107 that admit ACT alone. -/
def actRow (m : String) (op : Byte) (f : Action → Instr) : OpRow := ⟨m, op, false, false, false, true, fun _ _ _ a => f a⟩

/-- The rows of R107 that admit EOS and ACT. -/
def splitRow (m : String) (op : Byte) (f : Bool → Action → Instr) : OpRow :=
  ⟨m, op, false, false, true, true, fun _ _ e a => f e a⟩

/-- The opcode map R107, row by row in the table's order. -/
def opTable : List OpRow :=
  [plainRow "SETCONST" 0x01 .setconst,
   plainRow "SETSTAFF" 0x02 .setstaff,
   plainRow "SETCRC" 0x03 .setcrc,
   plainRow "SETLEN" 0x04 .setlen,
   actRow "SETFMT" 0x05 .setfmt,
   actRow "SETCRCLIST" 0x06 .setcrclist,
   actRow "SETLENLIST" 0x07 .setlenlist,
   plainRow "SETMAX" 0x08 .setmax,
   plainRow "STATUS" 0x09 .status,
   plainRow "RESET" 0x0A .reset,
   plainRow "TYPE" 0x10 .type,
   plainRow "LENBIT" 0x11 .lenbit,
   ordRow "WRITE" 0x12 .write,
   ⟨"CHECK", 0x13, true, true, false, false, fun o g _ _ => .check o g⟩,
   plainRow "HEXDEC" 0x14 .hexdec,
   plainRow "DURPARSE" 0x15 .durparse,
   ⟨"COUNTBIT", 0x20, false, true, false, false, fun _ g _ _ => .countbit g⟩,
   ordRow "PACK8" 0x21 .pack8,
   ordRow "PACK16" 0x22 .pack16,
   plainRow "COMMIT" 0x30 .commit,
   splitRow "SPLITSE" 0x40 .splitse,
   splitRow "SPLITLEN" 0x41 .splitlen,
   plainRow "STUFF" 0x50 .stuff,
   plainRow "UNSTUFF" 0x51 .unstuff,
   plainRow "MOD256" 0x60 .mod256,
   ordRow "CRC16" 0x61 .crc16,
   plainRow "CHKSUM" 0x62 .chksum,
   actRow "CALCLEN" 0x63 .calclen,
   actRow "CALCCRC" 0x64 .calccrc,
   actRow "BUILD" 0x65 .build,
   actRow "VERIFY" 0x66 .verify]

/-- Why a word is no command; each raises E_ILLEGAL (R102, R103, R108). -/
inductive Illegal where
  /-- OP is not in the table of R107. -/
  | unassignedOpcode
  /-- A word field the opcode does not admit, or a bit of RES [31:13], is not zero. -/
  | fieldNotAdmitted
  /-- The opcode admits ACT and the word holds ACT = 3. -/
  | reservedAction
  deriving DecidableEq, Repr

/-- `ADMIT(op)`: ORD = 0x100, G16 = 0x200, EOS = 0x400, ACT = 0x1800 (R103). -/
def OpRow.admitMask (r : OpRow) : Word :=
  (if r.admitsOrd then 0x100 else 0) ||| (if r.admitsG16 then 0x200 else 0) |||
    (if r.admitsEos then 0x400 else 0) ||| (if r.admitsAct then 0x1800 else 0)

/-- `order = (ORD = 0 ? BE : LE)` (R101); ORD is bit 8 (R100). -/
def wordOrder (w : Word) : Order := if w.getLsbD 8 then .le else .be

/-- `grid = (G16 = 0 ? 8 : 16)` (R101); G16 is bit 9 (R100). -/
def wordGrid (w : Word) : Grid := if w.getLsbD 9 then .g16 else .g8

/-- `eos = (EOS = 1)` (R101); EOS is bit 10 (R100). -/
def wordEos (w : Word) : Bool := w.getLsbD 10

/-- `a = ACT` (R101); ACT is bits 12:11, and its value 3 is refused before this is used (R103). -/
def wordAction (w : Word) : Action :=
  if w.extractLsb' 11 2 = 0 then .r else if w.extractLsb' 11 2 = 1 then .w else .e

/-- The row of R107 whose OP is the word's low byte. -/
def wordRow (w : Word) : Option OpRow := opTable.find? fun r => r.op == w.extractLsb' 0 8

/-- The decode procedure of R103. -/
def decode (w : Word) : Except Illegal Instr :=
  match wordRow w with
  | none => .error .unassignedOpcode
  | some r =>
    if (w &&& ~~~r.admitMask &&& 0xFFFFFF00) ≠ 0 then .error .fieldNotAdmitted
    else if r.admitsAct = true ∧ w.extractLsb' 11 2 = 3 then .error .reservedAction
    else .ok (r.build (wordOrder w) (wordGrid w) (wordEos w) (wordAction w))

/-- ORD in its place, bit 8 (R100). -/
def Order.bits : Order → Word
  | .be => 0x000
  | .le => 0x100

/-- G16 in its place, bit 9 (R100). -/
def Grid.fieldBits : Grid → Word
  | .g8 => 0x000
  | .g16 => 0x200

/-- EOS in its place, bit 10 (R100). -/
def eosBits (e : Bool) : Word := if e then 0x400 else 0x000

/-- ACT in its place, bits 12:11 (R100, R13). -/
def Action.bits : Action → Word
  | .r => 0x0000
  | .w => 0x0800
  | .e => 0x1000

/-- The command word of a command (R100, R107). -/
def encode : Instr → Word
  | .setconst => 0x01
  | .setstaff => 0x02
  | .setcrc => 0x03
  | .setlen => 0x04
  | .setfmt a => 0x05 ||| a.bits
  | .setcrclist a => 0x06 ||| a.bits
  | .setlenlist a => 0x07 ||| a.bits
  | .setmax => 0x08
  | .status => 0x09
  | .reset => 0x0A
  | .type => 0x10
  | .lenbit => 0x11
  | .write o => 0x12 ||| o.bits
  | .check o g => 0x13 ||| o.bits ||| g.fieldBits
  | .hexdec => 0x14
  | .durparse => 0x15
  | .countbit g => 0x20 ||| g.fieldBits
  | .pack8 o => 0x21 ||| o.bits
  | .pack16 o => 0x22 ||| o.bits
  | .commit => 0x30
  | .splitse e a => 0x40 ||| eosBits e ||| a.bits
  | .splitlen e a => 0x41 ||| eosBits e ||| a.bits
  | .stuff => 0x50
  | .unstuff => 0x51
  | .mod256 => 0x60
  | .crc16 o => 0x61 ||| o.bits
  | .chksum => 0x62
  | .calclen a => 0x63 ||| a.bits
  | .calccrc a => 0x64 ||| a.bits
  | .build a => 0x65 ||| a.bits
  | .verify a => 0x66 ||| a.bits

/-- The command whose bits are `w`, numbered as spec/opcode_table.json numbers them. A command word is one 32-bit
unit handed over beside its operand record (R100, R109): it has no byte order and no second word. -/
def decodeTableWord (nbits w : Nat) : Option Instr :=
  match decode (BitVec.ofNat 32 (w % 2 ^ nbits)) with
  | .ok i => some i
  | .error _ => none

end Sys2Proof
end

