-- ==== Sys2Proof/Machine/Value.lean ====
section
/-! DEFINITION. The operand data types: typed values, raw value records, the operand record, commands, and the report
record (spec/10_state.md R48 to R50; spec/30_encoding.md R104). -/

namespace Sys2Proof.Machine

/-- One entry per action: `FMT[a]`, `CRCLIST[a]`, `LENLIST[a]`, `TEMPLATE[a]` (R40 to R43). -/
structure PerAction (α : Type) where
  r : α
  w : α
  e : α
  deriving DecidableEq, Repr

/-- The eight integer kinds of R48. -/
inductive IntKind where
  | i8 | i16 | i32 | i64 | u8 | u16 | u32 | u64
  deriving DecidableEq, Repr

/-- The two float kinds of R48. -/
inductive FltKind where
  | f32 | f64
  deriving DecidableEq, Repr

/-- The ten numeric kinds of R48. -/
inductive NumKind where
  | int (k : IntKind)
  | flt (k : FltKind)
  deriving DecidableEq, Repr

/-- The kinds TYPE resolves (R105). -/
inductive Kind where
  | empty
  | num (k : NumKind)
  | rng (k : NumKind)
  | bool | str | bytes | time | err
  deriving DecidableEq, Repr

/-- A typed value (R48). `INT` and `FLT` carry an integer and an IEEE 754 bit pattern; `RNG(k, min, max)` is
`rngInt` or `rngFlt` by its kind, an absent bound being `none`; texts and strings are byte strings. -/
inductive Value where
  | empty
  | int (k : IntKind) (x : Int)
  | flt (k : FltKind) (bits : Nat)
  | rngInt (k : IntKind) (min max : Option Int)
  | rngFlt (k : FltKind) (min max : Option Nat)
  | bool (b : Bool)
  | str (s : Buffer)
  | bytes (t : Buffer)
  | time (t : Buffer)
  | err (s : Buffer)
  deriving DecidableEq, Repr

/-- The optional fields `exact_k`, `min_k` and `max_k` of one numeric kind (R49). -/
structure Presence (α : Type) where
  point : Option α := none
  min : Option α := none
  max : Option α := none
  deriving DecidableEq, Repr

/-- A raw value record, the presence form TYPE resolves (R49). -/
structure RawRec where
  i8 : Presence Int := {}
  i16 : Presence Int := {}
  i32 : Presence Int := {}
  i64 : Presence Int := {}
  u8 : Presence Int := {}
  u16 : Presence Int := {}
  u32 : Presence Int := {}
  u64 : Presence Int := {}
  f32 : Presence Nat := {}
  f64 : Presence Nat := {}
  bool : Option Bool := none
  string : Option Buffer := none
  byte : Option Buffer := none
  time : Option Buffer := none
  error : Option Buffer := none
  address : Option Buffer := none
  deriving DecidableEq, Repr

/-- The operand record (R104). Every field is held; a command reads only the fields its rule names. -/
structure Operands where
  record : RawRec := {}
  val : Value := .empty
  vals : List Value := []
  buf : Buffer := []
  buf2 : Buffer := []
  text : Buffer := []
  /-- A signed 64-bit count of nanoseconds, two's complement. -/
  elapsed : BitVec 64 := 0
  errtext : Buffer := []
  cur : Nat := 0
  lenval : Nat := 0
  k : Nat := 0
  word : Word := 0
  /-- A set of byte values: bit v is 1 iff v is in the set. -/
  pat : BitVec 256 := 0
  tokens : List Byte := []
  deriving DecidableEq, Repr

/-- A command: a command word with its operand record (R6, R100). -/
structure Command where
  word : Word
  operands : Operands := {}
  deriving DecidableEq, Repr

/-- A value in a report: "an integer, a float bit pattern, a Bool bit or a buffer" (R50). -/
inductive Datum where
  | int (x : Int)
  | flt (bits : Nat)
  | bit (b : Bool)
  | buf (b : Buffer)
  deriving DecidableEq, Repr, Inhabited

/-- The expected side `E` of a report (R50). -/
inductive Expected where
  | exactly (v : Datum)
  | range (min max : Option Datum)
  deriving DecidableEq, Repr, Inhabited

/-- A report record (R50). The field name belongs to the host. -/
structure Report where
  pass : Bool
  typeName : String
  expected : Expected
  got : Option Datum
  deriving DecidableEq, Repr

/-- The six textual renderings of a report, expected and got in decimal, hexadecimal and binary (R50, R240). -/
structure Renderings where
  expectedDec : String
  expectedHex : String
  expectedBin : String
  gotDec : String
  gotHex : String
  gotBin : String
  deriving DecidableEq, Repr, Inhabited

/-- One field of a frame that the host checks: the expected value, the byte order and grid of its CHECK, and the cursor
the host made of an `address`, which overrides the threaded one (R5, R540, R953, R963). -/
structure FieldTest where
  val : Value
  ord : Order := .be
  grid : Grid := .g8
  cursor : Option Nat := none
  deriving DecidableEq, Repr

/-- What the host does with a frame delivered to the codec (R540): the fields it checks, the cursor it starts at,
whether it issues VERIFY, and what it measured and received for TIME and ERR values (R104). -/
structure FrameTests where
  fields : List FieldTest := []
  cursor : Nat := 0
  verifies : Bool := false
  elapsed : BitVec 64 := 0
  errtext : Buffer := []
  deriving DecidableEq, Repr

/-- What the host extracts from a frame for VERIFY: logical data, length value and the checksum's wire bytes (R760). -/
structure FrameParts where
  data : Buffer
  lenval : Nat
  crc : Buffer
  deriving DecidableEq, Repr, Inhabited

end Sys2Proof.Machine
end

