-- ==== Sys2Proof/Machine/Bytes.lean ====
section
/-! DEFINITION. Byte sequences, byte order, searching and rounding (spec/00_scope.md R8 to R10). -/

namespace Sys2Proof.Machine

/-- `ceil_div(a, b)`: the least n with n * b >= a (R9). -/
def ceilDiv (a b : Nat) : Nat := (a + b - 1) / b

/-- `roundup(c, w)`: `ceil_div(c, w) * w` (R9). -/
def roundUp (c w : Nat) : Nat := ceilDiv c w * w

/-- `b[i:j]`, the half-open slice (R8). -/
def slice (b : Buffer) (i j : Nat) : Buffer := (b.drop i).take (j - i)

/-- `find` on the tail `b` of a buffer that begins at index i. -/
def findFrom (p : Buffer) : Buffer → Nat → Nat → Option Nat
  | [], i, hi => if i + p.length ≤ hi ∧ p = [] then some i else none
  | x :: b, i, hi => if i + p.length ≤ hi ∧ p.isPrefixOf (x :: b) then some i else findFrom p b (i + 1) hi

/-- `find(b, p, lo, hi)`: the least i with lo <= i, i + len(p) <= hi and `b[i:i+len(p)] = p` (R8). -/
def find (b p : Buffer) (lo hi : Nat) : Option Nat := findFrom p (b.drop lo) lo hi

/-- The n bytes of `x mod 2^(8n)`, least significant first (R10). -/
def bytesLE : Nat → Nat → Buffer
  | 0, _ => []
  | n + 1, x => BitVec.ofNat 8 x :: bytesLE n (x / 256)

/-- `bytes_ORD(n, x)`: the n-byte encoding of `x mod 2^(8n)` in order ORD (R10), two's complement for a negative x. -/
def bytesOf (ord : Order) (n : Nat) (x : Int) : Buffer :=
  match ord with
  | .le => bytesLE n (x % 2 ^ (8 * n)).toNat
  | .be => (bytesLE n (x % 2 ^ (8 * n)).toNat).reverse

/-- The unsigned integer whose bytes are bs, least significant first. -/
def uintLE : Buffer → Nat
  | [] => 0
  | b :: bs => b.toNat + 256 * uintLE bs

/-- `uint_ORD(bs)` (R10). -/
def uintOf (ord : Order) (bs : Buffer) : Nat :=
  match ord with
  | .le => uintLE bs
  | .be => uintLE bs.reverse

/-- `sint_ORD(bs)`: the two's-complement signed value of the same bits (R10). -/
def sintOf (ord : Order) (bs : Buffer) : Int :=
  if 2 * uintOf ord bs < 2 ^ (8 * bs.length) then uintOf ord bs else (uintOf ord bs : Int) - 2 ^ (8 * bs.length)

/-- The order a one-bit order field names: 0 = BE, 1 = LE (R36, R37, R100). -/
def orderOf (le : Bool) : Order := if le then .le else .be

/-- The grid's width in bits (R101). -/
def gridBits : Grid → Nat
  | .g8 => 8
  | .g16 => 16

end Sys2Proof.Machine
end

