-- ==== Sys2Proof/Config.lean ====
section
/-! DEFINITION. The parameters of spec/00_scope.md R7: the fixed ones that are numbers of their own, and the two the
spec leaves OPEN, as constants without a body. -/

namespace Sys2Proof.Config

open Sys2Proof.Machine

/-- The number of constant slots, 0 to 127 (R7, R39). -/
abbrev constSlots : Nat := 128

/-- EMPTY_CHECK_PASS, the pass flag of CHECK on an EMPTY value: left OPEN by R7 and R239. DESIGN CHOICE: a free
value, assumption log 2. -/
opaque emptyCheckPass : Bool

/-- The `expected` side of CHECK's report on an EMPTY value: R240 and R50 state none. DESIGN CHOICE: a free value,
assumption log 3. -/
opaque emptyExpected : Expected

/-- RENDER, the host function from a report's expected and got sides to text: left OPEN by R7 and R240. No command
calls it. DESIGN CHOICE: a free value, assumption log 4. -/
opaque render : Expected → Option Datum → Renderings

end Sys2Proof.Config
end

