-- ==== Sys2Proof/Machine/State.lean ====
section
/-! DEFINITION. The state of the FDC and of the host agent beside it, and the state after reset
(spec/10_state.md R30 to R47, spec/70_reset_and_hazards.md R950). -/

namespace Sys2Proof.Machine

/-- The status codes (R900), in the table's order. -/
inductive Status where
  | ok
  | illegal
  | notCfg
  | locked
  | faulted
  | hex
  | writeEmpty
  | writeNoform
  | valueMultikind
  | checkOob
  | eosIncomplete
  | lenOverflow
  | strategy
  | operand
  | cfgUnknownConst
  | cfgMarkerOrder
  | cfgDupMarker
  | cfgNoStart
  | cfgAmbiguousEnd
  | cfgAlg
  | cfgLenw
  | cfgStaff
  | cfgSuffixData
  | cfgCoverOrder
  | cfgToken
  | cfgCircular
  | cfgMax
  deriving DecidableEq, Repr

/-- A suffix token of a compiled template: "data", "crc" or a named constant (R43). -/
inductive SuffixToken where
  | data
  | crc
  | const (k : Fin Config.constSlots)
  deriving DecidableEq, Repr

/-- A compiled frame template (R43). -/
structure Template where
  start : Buffer
  lenOffset : Nat
  suffix : List SuffixToken
  endConst : Buffer
  lenDriven : Bool
  deriving DecidableEq, Repr

/-- One slot of the constant table (R39). -/
structure ConstSlot where
  valid : Bool
  bytes : Buffer
  deriving DecidableEq, Repr

/-- The constant table: 128 slots (R39). -/
abbrev ConstTable := Vector ConstSlot Config.constSlots

/-- The result record (R33). A command writes exactly the fields its rule names, so a field it does not write is
`none`; `status` is always written. `frame` holds "buffer or none" once written. -/
structure Result where
  status : Status := .ok
  kind : Option (BitVec 5) := none
  n : Option Nat := none
  bytes : Option Buffer := none
  /-- Signed 64-bit nanoseconds, two's complement. -/
  dur : Option (BitVec 64) := none
  cur : Option Nat := none
  report : Option Report := none
  adv : Option Nat := none
  frame : Option (Option Buffer) := none
  isFinal : Option Bool := none
  stat : Option Word := none
  deriving DecidableEq, Repr

/-- What one `transport.read()` of the host loop returns (R540): more bytes, or the end of the stream. -/
inductive TransportRead where
  | bytes (b : Buffer)
  | endOfStream
  deriving DecidableEq, Repr

/-- How the host stopped: its read loop (R540), or its loading of a configuration (R811, R952). -/
inductive LoopEnd where
  /-- A frame whose final flag was set. -/
  | final
  /-- The outcome EXHAUSTED. -/
  | exhausted
  /-- The status E_EOS_INCOMPLETE. -/
  | incomplete
  /-- Any other status of the split command, or a status of a configuration command that is not fatal. -/
  | failed (c : Status)
  /-- STATUS did not answer 0 before the configuration was loaded. -/
  | notFresh (stat : Word)
  /-- COMMIT ended with a fatal status: the code the host read with STATUS and reports (R811). -/
  | badConfig (fcode : Byte)
  deriving DecidableEq, Repr

/-- A frame being delivered to the codec (R540): its bytes, what the split command said of it, the cursor to thread into
the next CHECK (R963), the fields still to check, and whether a VERIFY is still to come. -/
structure Delivery where
  frame : Buffer
  adv : Nat
  isFinal : Bool
  cur : Nat
  todo : List FieldTest
  verify : Bool
  deriving DecidableEq, Repr

/-- Where the host stands: in its read loop (R540), or loading a configuration (R811, R952). -/
inductive LoopPhase where
  /-- Neither is running. -/
  | idle
  /-- About to issue `SPLIT.a`. -/
  | issue
  /-- `SPLIT.a` is issued; its result record is read next. -/
  | await
  /-- A frame is being delivered: its next CHECK or VERIFY is issued, or the frame is dropped from the stream. -/
  | deliver (d : Delivery)
  /-- A CHECK of the frame is issued; its result record is read next. -/
  | awaitCheck (d : Delivery)
  /-- The VERIFY of the frame is issued; its result record is read next. -/
  | awaitVerify (d : Delivery)
  /-- In `transport.read()`, which blocks until the transport has something to give. -/
  | reading
  /-- The loop, or the loading, has stopped. -/
  | stopped (e : LoopEnd)
  /-- Loading a configuration: the commands still to issue, the next one first. -/
  | boot (todo : List Command)
  /-- A command of the loading is issued; its result record is read next. -/
  | awaitBoot (todo : List Command)
  /-- COMMIT ended with a fatal status; STATUS is issued next (R811, R952). -/
  | refused
  /-- That STATUS is issued; its result record is read next. -/
  | awaitCode
  deriving DecidableEq, Repr

/-- The host's stream-reading loop (R540): the action it reads frames of, its `stream` and `eos` variables, what the
transport will give it, the frames it has delivered, what it does with a frame, and the result records of its CHECKs and
VERIFYs and of an incomplete frame, each list oldest first. Its phase is also where the host stands when it loads a
configuration (R811): one host does one thing at a time (R914). -/
structure ReadLoop where
  phase : LoopPhase
  action : Action
  stream : Buffer
  eos : Bool
  transport : List TransportRead
  delivered : List Buffer
  tests : FrameTests
  verdicts : List Result
  deriving DecidableEq, Repr

/-- The machine. The fields from `cfgStaff` to `ctrl` are the registers of R34 to R44. `result`, `pending` and `loop`
are the model's own: the result record last delivered, the commands the host has issued and the FDC has not completed
(oldest first, its head the command the FDC executes), and the host's read loop. CRCTAB (R45) is a constant, not
state: `crcTab`. -/
structure State where
  cfgStaff : Word
  cfgPat : BitVec 256
  cfgCrc : Word
  cfgLen : Word
  cfgMax : Word
  consts : ConstTable
  fmt : PerAction (List Byte)
  crcList : PerAction (List Byte)
  lenList : PerAction (List Byte)
  template : PerAction (Option Template)
  ctrl : Word
  result : Result
  pending : List Command
  loop : ReadLoop
  deriving DecidableEq, Repr

/-- Why the machine stops with a fault: never. Every exceptional condition of the FDC is a status code in the result
record of a command that completes (R900, R904, R908), so there is no constructor; an empty fault type is safe. -/
inductive Fault where
  deriving DecidableEq, Repr

/-- Why the machine refuses an instruction. -/
inductive Refusal where
  /-- Raised only by an arm of `exec` for an instruction that has no meaning yet; no arm raises it now. It is safe: the
  model stops where the hardware goes on. -/
  | notModelled (mnemonic : String)
  deriving DecidableEq, Repr

/-- The state after power-on (R950). `result`, `pending` and `loop` have no value in the spec: an empty result record,
no command issued and no read loop running (assumption log 5, DESIGN CHOICE). -/
def State.reset : State where
  cfgStaff := 0
  cfgPat := 0
  cfgCrc := 0
  cfgLen := 0
  cfgMax := 0
  consts := Vector.replicate Config.constSlots ⟨false, []⟩
  fmt := ⟨[], [], []⟩
  crcList := ⟨[], [], []⟩
  lenList := ⟨[], [], []⟩
  template := ⟨none, none, none⟩
  ctrl := 0
  result := {}
  pending := []
  loop := ⟨.idle, .r, [], false, [], [], {}, []⟩

end Sys2Proof.Machine
end

