-- ==== Sys2Proof/Machine/Ops.lean ====
section
/-! DEFINITION. The named operations over the registers: fields, tokens, status codes, the end of a command, taking an
exception (a status), RESET as the one way back from a fatal status, and the gates every command passes
(spec/10_state.md R34 to R46, spec/60_exceptions.md R900 to R904, spec/46_control.md R800). -/

namespace Sys2Proof.Machine

/-! ### Status codes -/

/-- The 8-bit code of a status (R900). -/
def Status.code : Status → Byte
  | .ok => 0x00
  | .illegal => 0x01
  | .notCfg => 0x02
  | .locked => 0x03
  | .faulted => 0x04
  | .hex => 0x05
  | .writeEmpty => 0x06
  | .writeNoform => 0x07
  | .valueMultikind => 0x08
  | .checkOob => 0x09
  | .eosIncomplete => 0x0A
  | .lenOverflow => 0x0B
  | .strategy => 0x0C
  | .operand => 0x0D
  | .cfgUnknownConst => 0x20
  | .cfgMarkerOrder => 0x21
  | .cfgDupMarker => 0x22
  | .cfgNoStart => 0x23
  | .cfgAmbiguousEnd => 0x24
  | .cfgAlg => 0x25
  | .cfgLenw => 0x26
  | .cfgStaff => 0x27
  | .cfgSuffixData => 0x28
  | .cfgCoverOrder => 0x29
  | .cfgToken => 0x2A
  | .cfgCircular => 0x2B
  | .cfgMax => 0x2C

/-- Exactly the codes 0x20 to 0x2C are fatal (R901). -/
def Status.fatal (c : Status) : Bool := 0x20 ≤ c.code.toNat && c.code.toNat ≤ 0x2C

/-! ### Per-action registers -/

/-- The entry of action a (R13). -/
def PerAction.get {α : Type} (p : PerAction α) : Action → α
  | .r => p.r
  | .w => p.w
  | .e => p.e

/-- Write the entry of action a. -/
def PerAction.set {α : Type} (p : PerAction α) (a : Action) (x : α) : PerAction α :=
  match a with
  | .r => { p with r := x }
  | .w => { p with w := x }
  | .e => { p with e := x }

/-- The actions in the order R, W, E that COMMIT walks them in (R400, R420). -/
def allActions : List Action := [.r, .w, .e]

/-! ### Register fields -/

/-- CTRL.FCODE (R44). -/
def State.fcode (s : State) : Byte := s.ctrl.extractLsb' 0 8

/-- CTRL.COMMITTED (R44). -/
def State.committed (s : State) : Bool := s.ctrl.getLsbD 8

/-- CTRL.FAULTED (R44). -/
def State.faulted (s : State) : Bool := s.ctrl.getLsbD 9

/-- CTRL from its fields; bits 31:10 read zero (R44). -/
def ctrlWord (fcode : Byte) (committed faulted : Bool) : Word :=
  fcode.setWidth 32 ||| (if committed then 0x100 else 0) ||| (if faulted then 0x200 else 0)

/-- CFG_STAFF.ESC (R34). -/
def State.esc (s : State) : Byte := s.cfgStaff.extractLsb' 0 8

/-- CFG_STAFF.EN (R34). -/
def State.staffEn (s : State) : Bool := s.cfgStaff.getLsbD 8

/-- CFG_CRC.ALG (R36). -/
def State.alg (s : State) : Nat := (s.cfgCrc.extractLsb' 0 2).toNat

/-- CFG_CRC.CORD (R36). -/
def State.cord (s : State) : Order := orderOf (s.cfgCrc.getLsbD 2)

/-- CFG_CRC.CS (R36). -/
def State.crcStaffed (s : State) : Bool := s.cfgCrc.getLsbD 3

/-- CFG_LEN.W (R37). -/
def State.lenWidth (s : State) : Nat := (s.cfgLen.extractLsb' 0 4).toNat

/-- CFG_LEN.LS (R37). -/
def State.lenStaffed (s : State) : Bool := s.cfgLen.getLsbD 4

/-- CFG_LEN.LC (R37). -/
def State.lenCountsWire (s : State) : Bool := s.cfgLen.getLsbD 5

/-- CFG_LEN.LORD (R37). -/
def State.lord (s : State) : Order := orderOf (s.cfgLen.getLsbD 6)

/-- M, the maximum frame length (R38). -/
def State.maxFrame (s : State) : Nat := s.cfgMax.toNat

/-- A staffing rule (ESC, P) (R46). -/
structure StaffRule where
  esc : Byte
  pat : BitVec 256
  deriving DecidableEq, Repr

/-- The staffing rule in force: `(ESC, P)` when EN = 1, absent when EN = 0 (R46). -/
def State.rule (s : State) : Option StaffRule := if s.staffEn then some ⟨s.esc, s.cfgPat⟩ else none

/-- `b in P` (R35). -/
def StaffRule.has (r : StaffRule) (b : Byte) : Bool := r.pat.getLsbD b.toNat

/-- Write a constant slot, for k in 0..127 (R39, R801). -/
def State.setConst (s : State) (k : Nat) (bs : Buffer) : State :=
  if h : k < Config.constSlots then { s with consts := s.consts.set k ⟨true, bs⟩ h } else s

/-- `bytes_k` (R39). -/
def State.constBytes (s : State) (k : Fin Config.constSlots) : Buffer := s.consts[k].bytes

/-! ### Tokens -/

/-- A token (R106). -/
inductive Token where
  | len
  | data
  | crc
  | const (k : Fin Config.constSlots)
  /-- A reserved code: 0x00 and 0x04 to 0x7F. -/
  | reserved (b : Byte)
  deriving DecidableEq, Repr

/-- The slot of a code 0x80 + k (R106). -/
def tokenSlot (b : Byte) : Fin Config.constSlots := ⟨b.toNat % 128, Nat.mod_lt _ (by decide)⟩

/-- The token of a code (R106). -/
def tokenOf (b : Byte) : Token :=
  if b = 0x01 then .len
  else if b = 0x02 then .data
  else if b = 0x03 then .crc
  else if 0x80 ≤ b.toNat then .const (tokenSlot b)
  else .reserved b

/-- The code of a token (R106). -/
def tokenCode : Token → Byte
  | .len => 0x01
  | .data => 0x02
  | .crc => 0x03
  | .const k => BitVec.ofNat 8 (0x80 + k.val)
  | .reserved b => b

/-- The marker codes of R106. -/
def lenCode : Byte := 0x01
def dataCode : Byte := 0x02
def crcCode : Byte := 0x03

/-- A token code list as tokens. -/
def tokensOf (l : List Byte) : List Token := l.map tokenOf

/-! ### The command being executed and its end -/

/-- The operand record of the command being executed: the oldest issued one (R32, R104). With no command issued there
is none; the blank record stands for it, and `step` never reaches that case (assumption log 1). -/
def State.operands (s : State) : Operands :=
  match s.pending with
  | c :: _ => c.operands
  | [] => {}

/-- End the command: its result record is delivered, and the host's next command comes to the front (R32, R33). -/
def State.finish (s : State) (r : Result) : State := { s with result := r, pending := s.pending.tail }

/-- TAKING AN EXCEPTION. `raise E`: the command ends with status c, the result record holds only `status`, and no
state changes, except that a fatal status sets FAULTED and FCODE (R11, R902, R904, R908). No pc, status or mode is
saved, and there is no handler (R908). -/
def State.raise (s : State) (c : Status) : State :=
  if c.fatal then { s with ctrl := ctrlWord c.code s.committed true }.finish { status := c }
  else s.finish { status := c }

/-- THE WAY BACK FROM A FATAL STATUS: every register of the FDC takes its reset value (R810, R909, R950). The host's
own state, its issued commands and its read loop, is not the FDC's (R30). -/
def State.resetRegisters (s : State) : State :=
  { State.reset with result := s.result, pending := s.pending, loop := s.loop }

/-- The outcome type of a step. -/
abbrev Out := Host.Outcome State Fault Refusal

/-- End a command that changes no register: with its result record, or with the status it raised. -/
def State.respond (s : State) : Except Status Result → Out
  | .ok r => .next (s.finish r)
  | .error c => .next (s.raise c)

/-- End a command that writes registers and returns `status` only: with the registers written, or with the status it
raised and nothing written (R904). -/
def State.update (s : State) : Except Status State → Out
  | .ok t => .next (t.finish {})
  | .error c => .next (s.raise c)

/-! ### Gating (R800, R903) -/

/-- A command that needs no configuration: step 2 of R800 alone. -/
def State.free (s : State) (body : Except Status Result) : Out :=
  if s.faulted then .next (s.raise .faulted) else s.respond body

/-- A SET command or COMMIT: steps 2 and 3 of R800, then the command's own checks. -/
def State.unlocked (s : State) (body : Except Status State) : Out :=
  if s.faulted then .next (s.raise .faulted)
  else if s.committed then .next (s.raise .locked)
  else s.update body

/-- A command that needs the committed configuration: steps 2 and 4 of R800. -/
def State.configured (s : State) (body : Except Status Result) : Out :=
  if s.faulted then .next (s.raise .faulted)
  else if s.committed then s.respond body
  else .next (s.raise .notCfg)

/-- A command that needs the committed configuration and a template for action a: steps 2 and 4 of R800. -/
def State.withTemplate (s : State) (a : Action) (body : Template → Except Status Result) : Out :=
  s.configured (match s.template.get a with
    | none => .error .notCfg
    | some t => body t)

end Sys2Proof.Machine
end

