-- ==== Sys2Proof/Machine/Staffing.lean ====
section
/-! DEFINITION. Byte staffing: admission, STUFF, UNSTUFF (spec/44_staffing.md). -/

namespace Sys2Proof.Machine

/-- The pattern set {ESC}. -/
def escOnly (esc : Byte) : BitVec 256 := 1#256 <<< esc.toNat

/-- An admitted staffing rule: ESC is not in P, or P = {ESC} (R600). -/
def StaffRule.admitted (r : StaffRule) : Bool := !r.has r.esc || r.pat = escOnly r.esc

/-- STUFF under a rule: an escape byte after every pattern byte (R601). -/
def stuffBy (r : StaffRule) : Buffer → Buffer
  | [] => []
  | b :: bs => if r.has b then b :: r.esc :: stuffBy r bs else b :: stuffBy r bs

/-- UNSTUFF under a rule: the escape byte after a pattern byte is dropped (R602). -/
def unstuffBy (r : StaffRule) : Buffer → Buffer
  | [] => []
  | [b] => [b]
  | b :: e :: bs => if r.has b ∧ e = r.esc then b :: unstuffBy r bs else b :: unstuffBy r (e :: bs)

/-- STUFF under the rule in force; an absent rule is the identity (R46, R601). -/
def stuffing (rule : Option StaffRule) (b : Buffer) : Buffer :=
  match rule with
  | some r => stuffBy r b
  | none => b

/-- UNSTUFF under the rule in force; an absent rule is the identity (R46, R602). -/
def unstuffing (rule : Option StaffRule) (b : Buffer) : Buffer :=
  match rule with
  | some r => unstuffBy r b
  | none => b

/-- STUFF (R601). -/
def execStuff (s : State) : Out := s.configured (.ok { bytes := some (stuffing s.rule s.operands.buf) })

/-- UNSTUFF (R602). -/
def execUnstuff (s : State) : Out := s.configured (.ok { bytes := some (unstuffing s.rule s.operands.buf) })

end Sys2Proof.Machine
end

