-- ==== Sys2Proof/Machine/Checksum.lean ====
section
/-! DEFINITION. Checksums, and the length and checksum of a frame: MOD256, CRC16, CHKSUM, CALCLEN, CALCCRC, BUILD,
VERIFY (spec/45_checksum.md; CRCTAB spec/10_state.md R45). -/

namespace Sys2Proof.Machine

/-! ### Primitives -/

/-- The modulo-256 sum (R700). -/
def mod256 (b : Buffer) : Byte := b.foldl (· + ·) 0

/-- One of the eight steps that make a CRCTAB entry (R45). -/
def crcBitStep (c : BitVec 16) : BitVec 16 := if c.getLsbD 0 then (c >>> 1) ^^^ 0xA001 else c >>> 1

/-- `n` of those steps. -/
def crcBitSteps : Nat → BitVec 16 → BitVec 16
  | 0, c => c
  | n + 1, c => crcBitSteps n (crcBitStep c)

/-- CRCTAB[i], the constant ROM (R45). -/
def crcTab (i : Byte) : BitVec 16 := crcBitSteps 8 (i.setWidth 16)

/-- One byte of the table-driven CRC (R710). -/
def crcByte (c : BitVec 16) (b : Byte) : BitVec 16 := (c >>> 8) ^^^ crcTab (c.extractLsb' 0 8 ^^^ b)

/-- The CRC-16 register after a buffer, from 0xFFFF (R710). -/
def crc16Value (b : Buffer) : BitVec 16 := b.foldl crcByte 0xFFFF

/-- CRC16's bytes (R710). -/
def crc16Bytes (ord : Order) (b : Buffer) : Buffer := bytesOf ord 2 (crc16Value b).toNat

/-- MOD256 (R700). -/
def execMod256 (s : State) : Out := s.free (.ok { bytes := some [mod256 s.operands.buf] })

/-- CRC16 (R710). -/
def execCrc16 (ord : Order) (s : State) : Out := s.free (.ok { bytes := some (crc16Bytes ord s.operands.buf) })

/-! ### The configured checksum -/

/-- `CHK(b)`: mod-256 for ALG = 0, else CRC-16 in CORD order (R720). -/
def chk (s : State) (b : Buffer) : Buffer := if s.alg = 0 then [mod256 b] else crc16Bytes s.cord b

/-- `CHKLEN()` (R721). -/
def chkLen (s : State) : Nat := if s.alg = 0 then 1 else 2

/-- CHKSUM (R720). -/
def execChksum (s : State) : Out := s.configured (.ok { bytes := some (chk s s.operands.buf) })

/-! ### CALCCRC -/

/-- The bytes one CRCLIST token contributes. CRC and reserved codes contribute none: COMMIT has refused them (R420
step 1; assumption log 9). -/
def coveredBytes (s : State) (data : Buffer) (lenval : Nat) : Token → Buffer
  | .data => data
  | .len => bytesOf s.lord s.lenWidth lenval
  | .const k => s.constBytes k
  | .crc => []
  | .reserved _ => []

/-- The checksum bytes over the logical bytes of CRCLIST[a]'s tokens (R740). -/
def crcOver (s : State) (a : Action) (data : Buffer) (lenval : Nat) : Buffer :=
  chk s ((tokensOf (s.crcList.get a)).flatMap (coveredBytes s data lenval))

/-- The length value does not fit the W-byte field. -/
def lenOverflows (s : State) (n : Nat) : Bool := 2 ^ (8 * s.lenWidth) ≤ n

/-- `CALCCRC(a, data, lenval)` (R740). -/
def calcCrc (s : State) (a : Action) (data : Buffer) (lenval : Nat) : Except Status Buffer :=
  if lenCode ∈ s.crcList.get a ∧ lenOverflows s lenval then .error .operand else .ok (crcOver s a data lenval)

/-- CALCCRC (R740). -/
def execCalccrc (a : Action) (s : State) : Out :=
  s.configured (match calcCrc s a s.operands.buf s.operands.lenval with
    | .ok bs => .ok { bytes := some bs }
    | .error c => .error c)

/-! ### CALCLEN -/

/-- What one LENLIST token adds to the length. LEN and reserved codes add nothing: COMMIT has refused them (R420
step 1; assumption log 9). -/
def tokenLen (s : State) (a : Action) (data : Buffer) : Token → Except Status Nat
  | .data => .ok (if s.lenCountsWire then (stuffing s.rule data).length else data.length)
  | .crc =>
    if s.lenCountsWire && s.crcStaffed && s.rule.isSome then
      match calcCrc s a data 0 with
      | .ok bs => .ok (stuffing s.rule bs).length
      | .error e => .error e
    else .ok (chkLen s)
  | .const k => .ok (s.constBytes k).length
  | .len => .ok 0
  | .reserved _ => .ok 0

/-- The running total of R730. -/
def totalLen (s : State) (a : Action) (data : Buffer) : List Token → Nat → Except Status Nat
  | [], tot => .ok tot
  | t :: ts, tot =>
    match tokenLen s a data t with
    | .ok n => totalLen s a data ts (tot + n)
    | .error e => .error e

/-- `CALCLEN(a, data)` (R730). -/
def calcLen (s : State) (a : Action) (data : Buffer) : Except Status Nat :=
  match totalLen s a data (tokensOf (s.lenList.get a)) 0 with
  | .error e => .error e
  | .ok n => if lenOverflows s n then .error .lenOverflow else .ok n

/-- CALCLEN (R730). -/
def execCalclen (a : Action) (s : State) : Out :=
  s.configured (match calcLen s a s.operands.buf with
    | .ok n => .ok { n := some n }
    | .error c => .error c)

/-! ### BUILD -/

/-- The wire bytes of one FMT token, for length value l and checksum c (R606, R750). -/
def wireBytes (s : State) (data : Buffer) (l : Nat) (c : Buffer) : Token → Buffer
  | .const k => s.constBytes k
  | .len =>
    let lb := bytesOf s.lord s.lenWidth l
    if s.lenStaffed then stuffing s.rule lb else lb
  | .data => stuffing s.rule data
  | .crc => if s.crcStaffed then stuffing s.rule c else c
  | .reserved _ => []

/-- The length value BUILD uses: CALCLEN when a length appears in the format or under the checksum (R750). -/
def buildLen (s : State) (a : Action) (data : Buffer) : Except Status Nat :=
  if lenCode ∈ s.fmt.get a ∨ lenCode ∈ s.crcList.get a then calcLen s a data else .ok 0

/-- `BUILD(a, data)` (R750). -/
def buildFrame (s : State) (a : Action) (data : Buffer) : Except Status Buffer :=
  match buildLen s a data with
  | .error e => .error e
  | .ok l =>
    match calcCrc s a data l with
    | .error e => .error e
    | .ok c => .ok ((tokensOf (s.fmt.get a)).flatMap (wireBytes s data l c))

/-- BUILD (R750). -/
def execBuild (a : Action) (s : State) : Out :=
  s.withTemplate a fun _ =>
    match buildFrame s a s.operands.buf with
    | .ok bs => .ok { bytes := some bs }
    | .error c => .error c

/-! ### VERIFY -/

/-- The received checksum as logical bytes (R760). -/
def receivedCrc (s : State) (rx : Buffer) : Buffer := if s.crcStaffed then unstuffing s.rule rx else rx

/-- VERIFY's report for the computed checksum `want` (R760). -/
def verifyReport (s : State) (want rx : Buffer) : Report :=
  { pass := receivedCrc s rx = want, typeName := "crc", expected := .exactly (.buf want),
    got := some (.buf (receivedCrc s rx)) }

/-- VERIFY (R760). -/
def execVerify (a : Action) (s : State) : Out :=
  s.configured (match calcCrc s a s.operands.buf s.operands.lenval with
    | .ok want => .ok { report := some (verifyReport s want s.operands.buf2) }
    | .error c => .error c)

end Sys2Proof.Machine
end

