-- ==== Sys2Proof/Machine/Literals.lean ====
section
/-! DEFINITION. The two literal decoders the codec calls: hex-literal byte strings and durations
(spec/40_codec.md R250, R260). -/

namespace Sys2Proof.Machine

/-! ### Hex literals (R250) -/

/-- ASCII case folding of one byte. -/
def asciiLower (b : Byte) : Byte := if 0x41 ≤ b.toNat ∧ b.toNat ≤ 0x5A then b + 0x20 else b

/-- Delete every occurrence of "0x", left to right, non-overlapping (R250). -/
def dropOx : Buffer → Buffer
  | [] => []
  | [b] => [b]
  | b :: c :: r => if b = 0x30 ∧ c = 0x78 then dropOx r else b :: dropOx (c :: r)

/-- The value of a lower-case hex digit. -/
def hexDigit (b : Byte) : Option Nat :=
  if 0x30 ≤ b.toNat ∧ b.toNat ≤ 0x39 then some (b.toNat - 0x30)
  else if 0x61 ≤ b.toNat ∧ b.toNat ≤ 0x66 then some (b.toNat - 0x61 + 10)
  else none

/-- The pairing loop of R250; a last unpaired character is ignored unexamined. -/
def hexPairs : Buffer → Except Status Buffer
  | a :: b :: r =>
    match hexDigit a, hexDigit b with
    | some x, some y =>
      match hexPairs r with
      | .ok bs => .ok (BitVec.ofNat 8 (16 * x + y) :: bs)
      | .error c => .error c
    | _, _ => .error .hex
  | _ => .ok []

/-- The characters R250 pairs: lower case, every "0x" deleted, then every space. -/
def hexClean (text : Buffer) : Buffer := (dropOx (text.map asciiLower)).filter (· ≠ 0x20)

/-- HEXDEC (R250). -/
def hexDec (text : Buffer) : Except Status Buffer := hexPairs (hexClean text)

/-! ### Durations (R260) -/

/-- An ASCII decimal digit. -/
def isDigit (b : Byte) : Bool := 0x30 ≤ b.toNat && b.toNat ≤ 0x39

/-- The number a string of decimal digits denotes. -/
def decimal (ds : Buffer) : Nat := ds.foldl (fun n b => 10 * n + (b.toNat - 0x30)) 0

/-- The nanoseconds of a unit: ns, us, ms, s, m, h (R260). -/
def unitNanos (u : Buffer) : Option Nat :=
  if u = [0x6E, 0x73] then some 1
  else if u = [0x75, 0x73] then some 1000
  else if u = [0x6D, 0x73] then some 1000000
  else if u = [0x73] then some 1000000000
  else if u = [0x6D] then some 60000000000
  else if u = [0x68] then some 3600000000000
  else none

/-- The fraction digits after a "." and the text behind them; no "." gives no digits (R260). -/
def splitFraction : Buffer → Buffer × Buffer
  | 0x2E :: r => (r.takeWhile isDigit, r.dropWhile isDigit)
  | r => ([], r)

/-- The number of nanoseconds a duration text denotes, exact and then truncated; `none` when the text does not match
the grammar of R260. -/
def durationNanos (text : Buffer) : Option Nat :=
  let ds := text.takeWhile isDigit
  let rest := text.dropWhile isDigit
  if text = [] then some 0
  else if rest = [] then some (decimal ds * 1000000000)
  else if ds = [] then
    match unitNanos rest with
    | some _ => some 0
    | none => none
  else
    match unitNanos (splitFraction rest).2 with
    | some u => some (decimal (ds ++ (splitFraction rest).1) * u / 10 ^ (splitFraction rest).1.length)
    | none => none

/-- DURPARSE: unparsable text and overflow give the sentinel -1 (R260). -/
def durParse (text : Buffer) : Int :=
  match durationNanos text with
  | none => -1
  | some v => if v > 2 ^ 63 - 1 then -1 else v

end Sys2Proof.Machine
end

