-- ==== Sys2Proof/Machine/Operands.lean ====
section
/-! DEFINITION. The operand forms: kinds and widths, the kind and the typed value of a raw value record, type names,
and the reserved bits of the SET operand words (spec/10_state.md R48, R49; spec/30_encoding.md R105;
spec/40_codec.md R200, R201, R210, R270; spec/46_control.md R802 to R804). -/

namespace Sys2Proof.Machine

/-! ### Kinds -/

/-- Width in bits of an integer kind (R210). -/
def IntKind.width : IntKind → Nat
  | .i8 => 8
  | .u8 => 8
  | .i16 => 16
  | .u16 => 16
  | .i32 => 32
  | .u32 => 32
  | .i64 => 64
  | .u64 => 64

/-- The signed kinds (R48). -/
def IntKind.signed : IntKind → Bool
  | .i8 => true
  | .i16 => true
  | .i32 => true
  | .i64 => true
  | .u8 => false
  | .u16 => false
  | .u32 => false
  | .u64 => false

/-- Width in bits of a float kind (R210). -/
def FltKind.width : FltKind → Nat
  | .f32 => 32
  | .f64 => 64

/-- Kind codes of the numeric kinds, 0x01 to 0x0A (R105). -/
def NumKind.code : NumKind → BitVec 5
  | .int .i8 => 0x01
  | .int .i16 => 0x02
  | .int .i32 => 0x03
  | .int .i64 => 0x04
  | .int .u8 => 0x05
  | .int .u16 => 0x06
  | .int .u32 => 0x07
  | .int .u64 => 0x08
  | .flt .f32 => 0x09
  | .flt .f64 => 0x0A

/-- Kind codes (R105); RNG of kind k has code 0x10 + code(k). -/
def Kind.code : Kind → BitVec 5
  | .empty => 0x00
  | .num k => k.code
  | .rng k => 0x10 + k.code
  | .bool => 0x0B
  | .str => 0x0C
  | .bytes => 0x0D
  | .time => 0x0E
  | .err => 0x0F

/-- The configuration key of a numeric kind (R105, R270). -/
def NumKind.key : NumKind → String
  | .int .i8 => "int8"
  | .int .i16 => "int16"
  | .int .i32 => "int32"
  | .int .i64 => "int64"
  | .int .u8 => "uint8"
  | .int .u16 => "uint16"
  | .int .u32 => "uint32"
  | .int .u64 => "uint64"
  | .flt .f32 => "float32"
  | .flt .f64 => "float64"

/-- `typeName(val)` (R270). -/
def typeName : Value → String
  | .empty => ""
  | .int k _ => (NumKind.int k).key
  | .flt k _ => (NumKind.flt k).key
  | .rngInt k _ _ => (NumKind.int k).key
  | .rngFlt k _ _ => (NumKind.flt k).key
  | .bool _ => "bool"
  | .str _ => "string"
  | .bytes _ => "byte"
  | .time _ => "time"
  | .err _ => "error"

/-! ### Raw value records -/

/-- The fields of one integer kind (R49). -/
def RawRec.intFields (r : RawRec) : IntKind → Presence Int
  | .i8 => r.i8
  | .i16 => r.i16
  | .i32 => r.i32
  | .i64 => r.i64
  | .u8 => r.u8
  | .u16 => r.u16
  | .u32 => r.u32
  | .u64 => r.u64

/-- The fields of one float kind (R49). -/
def RawRec.fltFields (r : RawRec) : FltKind → Presence Nat
  | .f32 => r.f32
  | .f64 => r.f64

/-- The kind of one numeric family if any of its fields is present: exact if `exact_k` is, else the range (R200). -/
def Presence.family {α : Type} (k : NumKind) (p : Presence α) : List Kind :=
  if p.point.isSome then [.num k]
  else if p.min.isSome || p.max.isSome then [.rng k]
  else []

/-- `fams` of R200, each family already resolved to its kind, in the order of R200. -/
def RawRec.families (r : RawRec) : List Kind :=
  r.i8.family (.int .i8) ++ r.i16.family (.int .i16) ++ r.i32.family (.int .i32) ++ r.i64.family (.int .i64) ++
  r.u8.family (.int .u8) ++ r.u16.family (.int .u16) ++ r.u32.family (.int .u32) ++ r.u64.family (.int .u64) ++
  r.f32.family (.flt .f32) ++ r.f64.family (.flt .f64) ++
  (if r.bool.isSome then [.bool] else []) ++ (if r.string.isSome then [.str] else []) ++
  (if r.byte.isSome then [.bytes] else []) ++ (if r.time.isSome then [.time] else []) ++
  (if r.error.isSome then [.err] else [])

/-- TYPE's kind of a record; fields of two kinds raise E_VALUE_MULTIKIND (R200). `address` takes no part. -/
def RawRec.kind (r : RawRec) : Except Status Kind :=
  match r.families with
  | [] => .ok .empty
  | [k] => .ok k
  | _ => .error .valueMultikind

/-- The variant of R48 that a kind selects from a record (R201). -/
def RawRec.valueOf (r : RawRec) : Kind → Value
  | .empty => .empty
  | .num (.int k) => .int k ((r.intFields k).point.getD 0)
  | .num (.flt k) => .flt k ((r.fltFields k).point.getD 0)
  | .rng (.int k) => .rngInt k (r.intFields k).min (r.intFields k).max
  | .rng (.flt k) => .rngFlt k (r.fltFields k).min (r.fltFields k).max
  | .bool => .bool (r.bool.getD false)
  | .str => .str (r.string.getD [])
  | .bytes => .bytes (r.byte.getD [])
  | .time => .time (r.time.getD [])
  | .err => .err (r.error.getD [])

/-- `resolve(rec)`, with which the host builds the `val` operands (R201). -/
def RawRec.resolve (r : RawRec) : Except Status Value :=
  match r.kind with
  | .ok k => .ok (r.valueOf k)
  | .error c => .error c

/-! ### Widths -/

/-- LENBIT: the canonical bit width of a value; malformed BYTES text raises E_HEX (R210). -/
def lenBit : Value → Except Status Nat
  | .bool _ => .ok 1
  | .int k _ => .ok k.width
  | .flt k _ => .ok k.width
  | .rngInt k _ _ => .ok k.width
  | .rngFlt k _ _ => .ok k.width
  | .str s => .ok (8 * s.length)
  | .bytes t =>
    match hexDec t with
    | .ok bs => .ok (8 * bs.length)
    | .error c => .error c
  | .empty => .ok 0
  | .time _ => .ok 0
  | .err _ => .ok 0

/-! ### SET operand words -/

/-- A SET operand word whose bits from n up are zero, cut to those n bits; a set reserved bit raises E_OPERAND
(R802 to R804). The stored register's reserved bits are zero (R34, R36, R37). -/
def operandField (n : Nat) (w : Word) : Except Status Word :=
  if w.toNat < 2 ^ n then .ok ((w.extractLsb' 0 n).setWidth 32) else .error .operand

end Sys2Proof.Machine
end

