-- ==== Sys2Proof/Machine/Flags.lean ====
section
/-! DEFINITION. The two result flags, `report.pass` and `final` (spec/10_state.md R33): exact and range matches
(spec/40_codec.md R235, R236), IEEE 754 comparison (R221, R235, R236), and the final flag of the splitters
(spec/43_delimiter.md R510, R520). -/

namespace Sys2Proof.Machine

/-! ### IEEE 754 comparison -/

/-- Width of the fraction field of binary32 and binary64. -/
def FltKind.fracBits : FltKind → Nat
  | .f32 => 23
  | .f64 => 52

/-- Width of the exponent field. -/
def FltKind.expBits : FltKind → Nat
  | .f32 => 8
  | .f64 => 11

/-- The fraction field of a bit pattern. -/
def FltKind.frac (k : FltKind) (bits : Nat) : Nat := bits % 2 ^ k.fracBits

/-- The biased exponent field of a bit pattern. -/
def FltKind.expo (k : FltKind) (bits : Nat) : Nat := bits / 2 ^ k.fracBits % 2 ^ k.expBits

/-- The sign bit of a bit pattern. -/
def FltKind.neg (k : FltKind) (bits : Nat) : Bool := bits / 2 ^ (k.width - 1) % 2 = 1

/-- A NaN: exponent all ones and a non-zero fraction. -/
def FltKind.isNaN (k : FltKind) (bits : Nat) : Bool := k.expo bits = 2 ^ k.expBits - 1 && k.frac bits ≠ 0

/-- The magnitude, in units of the least subnormal: f for exponent 0, (2^fracBits + f) * 2^(e-1) above it. An infinity
(e all ones, f = 0) gets the value that formula gives it, which exceeds every finite one. -/
def FltKind.magnitude (k : FltKind) (bits : Nat) : Nat :=
  if k.expo bits = 0 then k.frac bits else (2 ^ k.fracBits + k.frac bits) * 2 ^ (k.expo bits - 1)

/-- The number a bit pattern denotes, in units of the least subnormal; none for a NaN. -/
def FltKind.number (k : FltKind) (bits : Nat) : Option Int :=
  if k.isNaN bits then none
  else some (if k.neg bits then -(k.magnitude bits : Int) else k.magnitude bits)

/-- `ieee_eq`: a NaN equals nothing, +0 equals -0 (R235). -/
def ieeeEq (k : FltKind) (a b : Nat) : Bool :=
  match k.number a, k.number b with
  | some x, some y => x = y
  | _, _ => false

/-- IEEE 754 `<=`, false when either side is a NaN (R236). -/
def ieeeLe (k : FltKind) (a b : Nat) : Bool :=
  match k.number a, k.number b with
  | some x, some y => x ≤ y
  | _, _ => false

/-! ### Matches -/

/-- A bound that is absent, or meets the test (R236). -/
def boundHolds {α : Type} (p : α → Bool) : Option α → Bool
  | none => true
  | some x => p x

/-- MATCH of R235 and R236: the decoded datum against the value's expectation. -/
def valueMatches (v : Value) (got : Datum) : Bool :=
  match v, got with
  | .int _ x, .int g => g = x
  | .flt k b, .flt g => ieeeEq k g b
  | .bool v, .bit g => g = v
  | .str s, .buf g => g = s
  | .bytes t, .buf g =>
    match hexDec t with
    | .ok bs => g = bs
    | .error _ => false
  | .rngInt _ lo hi, .int g => boundHolds (fun m => m ≤ g) lo && boundHolds (fun m => g ≤ m) hi
  | .rngFlt k lo hi, .flt g => boundHolds (fun m => ieeeLe k m g) lo && boundHolds (fun m => ieeeLe k g m) hi
  | _, _ => false

/-- The pass flag of a TIME value: a signed 64-bit comparison in nanoseconds (R237). -/
def timePass (elapsed : BitVec 64) (t : Buffer) : Bool := elapsed.toInt ≤ durParse t

/-- The final flag of a frame of n bytes: `eos and n = len(buf)` (R510, R520). -/
def finalFlag (eos : Bool) (n : Nat) (buf : Buffer) : Bool := eos && n = buf.length

end Sys2Proof.Machine
end

