-- ==== Sys2Proof/Machine/Codec.lean ====
section
/-! DEFINITION. The typed value codec: TYPE, LENBIT, WRITE, CHECK, HEXDEC, DURPARSE (spec/40_codec.md). -/

namespace Sys2Proof.Machine

/-! ### TYPE, LENBIT -/

/-- TYPE (R200). -/
def execType (s : State) : Out :=
  s.free (match s.operands.record.kind with
    | .ok k => .ok { kind := some k.code }
    | .error c => .error c)

/-- LENBIT (R210). -/
def execLenbit (s : State) : Out :=
  s.free (match lenBit s.operands.val with
    | .ok n => .ok { n := some n }
    | .error c => .error c)

/-! ### WRITE -/

/-- The canonical bytes of a value (R220, R221). -/
def writeValue (ord : Order) : Value → Except Status Buffer
  | .int k x => .ok (bytesOf ord (k.width / 8) x)
  | .flt k b => .ok (bytesOf ord (k.width / 8) b)
  | .bool b => .ok [if b then 0x01 else 0x00]
  | .str s => .ok s
  | .bytes t => hexDec t
  | .empty => .error .writeEmpty
  | .rngInt _ _ _ => .error .writeNoform
  | .rngFlt _ _ _ => .error .writeNoform
  | .time _ => .error .writeNoform
  | .err _ => .error .writeNoform

/-- WRITE (R220). -/
def execWrite (ord : Order) (s : State) : Out :=
  s.free (match writeValue ord s.operands.val with
    | .ok bs => .ok { bytes := some bs }
    | .error c => .error c)

/-! ### CHECK -/

/-- Where a field lies: the rounded cursor and the bytes [start, stop) (R231). -/
structure Place where
  c : Nat
  start : Nat
  stop : Nat
  deriving DecidableEq, Repr

/-- The sub-word index after mirroring for BE (R231). -/
def mirror (ord : Order) (slots i : Nat) : Nat :=
  match ord with
  | .be => slots - 1 - i
  | .le => i

/-- `PLACE(w, cur, grid, order)`, for w > 0 (R230, R231). -/
def place (w cur grid : Nat) (ord : Order) : Place :=
  let c := roundUp cur w
  let g := max w grid
  let p := (c - c % g) + mirror ord (g / w) (c % g / w) * w
  { c := c, start := p / 8, stop := p / 8 + max 1 (w / 8) }

/-- DECODE of the bytes [start, stop), which lie inside the buffer (R234). EMPTY, TIME and ERR decode nothing; CHECK
does not reach them here. -/
def decodeField (v : Value) (buf : Buffer) (p : Place) (ord : Order) : Datum :=
  let bs := slice buf p.start p.stop
  match v with
  | .bool _ => .bit ((buf.getD p.start 0).getLsbD (p.c % 8))
  | .int k _ => .int (if k.signed then sintOf ord bs else uintOf ord bs)
  | .rngInt k _ _ => .int (if k.signed then sintOf ord bs else uintOf ord bs)
  | .flt _ _ => .flt (uintOf ord bs)
  | .rngFlt _ _ _ => .flt (uintOf ord bs)
  | _ => .buf bs

/-- `expected(val)` (R240). DEDUCED for BYTES, TIME and ERR (assumption log 7); for EMPTY the spec states none and it
is a free value (assumption log 3). -/
def expectedOf : Value → Expected
  | .empty => Config.emptyExpected
  | .int _ x => .exactly (.int x)
  | .flt _ b => .exactly (.flt b)
  | .rngInt _ lo hi => .range (lo.map .int) (hi.map .int)
  | .rngFlt _ lo hi => .range (lo.map .flt) (hi.map .flt)
  | .bool b => .exactly (.bit b)
  | .str s => .exactly (.buf s)
  | .bytes t =>
    match hexDec t with
    | .ok bs => .exactly (.buf bs)
    | .error _ => .exactly (.buf t)
  | .time t => .exactly (.buf t)
  | .err s => .exactly (.buf s)

/-- CHECK's report record (R240). -/
def reportOf (v : Value) (pass : Bool) (got : Option Datum) : Report :=
  { pass := pass, typeName := typeName v, expected := expectedOf v, got := got }

/-- A CHECK that returns the cursor and a report. -/
def checked (v : Value) (cur : Nat) (pass : Bool) (got : Option Datum) : Except Status Result :=
  .ok { cur := some cur, report := some (reportOf v pass got) }

/-- CHECK of a field of width w > 0 (R228, R230 to R236). -/
def checkField (ord : Order) (grid : Nat) (o : Operands) (w : Nat) : Except Status Result :=
  let p := place w o.cur grid ord
  if o.buf.length < ceilDiv (p.c + w) 8 then checked o.val (p.c + w) false none
  else if p.stop > o.buf.length then .error .checkOob
  else
    let got := decodeField o.val o.buf p ord
    checked o.val (p.c + w) (valueMatches o.val got) (some got)

/-- CHECK of a value that occupies the buffer (R228, R229). -/
def checkSized (ord : Order) (grid : Nat) (o : Operands) : Except Status Result :=
  match lenBit o.val with
  | .error c => .error c
  | .ok w => if w = 0 then checked o.val o.cur true (some (.buf [])) else checkField ord grid o w

/-- CHECK by variant (R228, R237 to R239). -/
def checkBody (ord : Order) (grid : Nat) (o : Operands) : Except Status Result :=
  match o.val with
  | .empty => checked o.val o.cur Config.emptyCheckPass none
  | .time t => checked o.val o.cur (timePass o.elapsed t) (some (.int o.elapsed.toInt))
  | .err s => checked o.val o.cur (o.errtext = s) (some (.buf o.errtext))
  | .int _ _ => checkSized ord grid o
  | .flt _ _ => checkSized ord grid o
  | .rngInt _ _ _ => checkSized ord grid o
  | .rngFlt _ _ _ => checkSized ord grid o
  | .bool _ => checkSized ord grid o
  | .str _ => checkSized ord grid o
  | .bytes _ => checkSized ord grid o

/-- CHECK (R228). -/
def execCheck (ord : Order) (grid : Grid) (s : State) : Out := s.free (checkBody ord (gridBits grid) s.operands)

/-! ### HEXDEC, DURPARSE -/

/-- HEXDEC (R250). -/
def execHexdec (s : State) : Out :=
  s.free (match hexDec s.operands.text with
    | .ok bs => .ok { bytes := some bs }
    | .error c => .error c)

/-- DURPARSE (R260). -/
def execDurparse (s : State) : Out :=
  s.free (.ok { dur := some (BitVec.ofInt 64 (durParse s.operands.text)) })

end Sys2Proof.Machine
end

