-- ==== Sys2Proof/Machine/Control.lean ====
section
/-! DEFINITION. The control commands: the SET commands, STATUS, RESET (spec/46_control.md). -/

namespace Sys2Proof.Machine

/-- SETCONST's effect: k > 127 raises E_OPERAND, else slot k holds the bytes and is valid (R801). -/
def setconstBody (s : State) (o : Operands) : Except Status State :=
  if 127 < o.k then .error .operand else .ok (s.setConst o.k o.buf)

/-- SETCONST (R801). -/
def execSetconst (s : State) : Out := s.unlocked (setconstBody s s.operands)

/-- SETSTAFF's effect: word[31:9] must be 0; ESC, EN and P are written (R802). -/
def setstaffBody (s : State) (o : Operands) : Except Status State :=
  match operandField 9 o.word with
  | .ok w => .ok { s with cfgStaff := w, cfgPat := o.pat }
  | .error e => .error e

/-- SETSTAFF (R802). -/
def execSetstaff (s : State) : Out := s.unlocked (setstaffBody s s.operands)

/-- SETCRC's effect: word[31:4] must be 0; ALG, CORD and CS are written (R803). -/
def setcrcBody (s : State) (o : Operands) : Except Status State :=
  match operandField 4 o.word with
  | .ok w => .ok { s with cfgCrc := w }
  | .error e => .error e

/-- SETCRC (R803). -/
def execSetcrc (s : State) : Out := s.unlocked (setcrcBody s s.operands)

/-- SETLEN's effect: word[31:7] must be 0; W, LS, LC and LORD are written (R804). -/
def setlenBody (s : State) (o : Operands) : Except Status State :=
  match operandField 7 o.word with
  | .ok w => .ok { s with cfgLen := w }
  | .error e => .error e

/-- SETLEN (R804). -/
def execSetlen (s : State) : Out := s.unlocked (setlenBody s s.operands)

/-- SETFMT (R805). -/
def execSetfmt (a : Action) (s : State) : Out := s.unlocked (.ok { s with fmt := s.fmt.set a s.operands.tokens })

/-- SETCRCLIST (R806). -/
def execSetcrclist (a : Action) (s : State) : Out :=
  s.unlocked (.ok { s with crcList := s.crcList.set a s.operands.tokens })

/-- SETLENLIST (R807). -/
def execSetlenlist (a : Action) (s : State) : Out :=
  s.unlocked (.ok { s with lenList := s.lenList.set a s.operands.tokens })

/-- SETMAX (R808). -/
def execSetmax (s : State) : Out := s.unlocked (.ok { s with cfgMax := s.operands.word })

/-- The word STATUS returns (R809). -/
def State.statusWord (s : State) : Word := ctrlWord s.fcode s.committed s.faulted

/-- STATUS, legal in every state (R800, R809). -/
def execStatus (s : State) : Out := .next (s.finish { stat := some s.statusWord })

/-- RESET, legal in every state (R800, R810). -/
def execReset (s : State) : Out := .next (s.resetRegisters.finish {})

end Sys2Proof.Machine
end

