-- ==== Sys2Proof/Machine/Delimiter.lean ====
section
/-! DEFINITION. The frame delimiter: the start phase, SPLITSE and SPLITLEN (spec/43_delimiter.md; split outcomes
spec/10_state.md R51). -/

namespace Sys2Proof.Machine

/-- A split outcome (R51). -/
inductive SplitOutcome where
  | need
  | discard (d : Nat)
  | frame (n : Nat) (f : Buffer) (fin : Bool)
  | exhausted
  deriving DecidableEq, Repr

/-- The result fields adv, frame and final of an outcome (R51). -/
def SplitOutcome.result : SplitOutcome → Result
  | .need => { adv := some 0, frame := some none, isFinal := some false }
  | .discard d => { adv := some d, frame := some none, isFinal := some false }
  | .frame n f fin => { adv := some n, frame := some (some f), isFinal := some fin }
  | .exhausted => { adv := some 0, frame := some none, isFinal := some true }

/-- What ends a splitter before its frame is complete: an outcome, or a status. -/
inductive SplitExit where
  | outcome (o : SplitOutcome)
  | raise (c : Status)
  deriving DecidableEq, Repr

/-- The result, or the status, of a splitter's exit. -/
def SplitExit.toExcept : SplitExit → Except Status Result
  | .outcome o => .ok o.result
  | .raise c => .error c

/-! ### START (R500) -/

/-- The start phase; `none` when the start constant is at index 0 and the strategy continues (R500). -/
def startPhase (start buf : Buffer) (eos : Bool) : Option SplitOutcome :=
  if buf.length = 0 then some (if eos then .exhausted else .need)
  else
    match find buf start 0 buf.length with
    | none =>
      if eos then some (.discard buf.length)
      else if start.length < buf.length then some (.discard (buf.length - start.length))
      else some .need
    | some i => if 0 < i then some (.discard i) else none

/-! ### SPLITSE (R510) -/

/-- SPLITSE after the start phase. -/
def seekEnd (t : Template) (m : Nat) (buf : Buffer) (eos : Bool) : SplitExit :=
  match find buf t.endConst t.start.length (min buf.length m) with
  | some j =>
    let n := j + t.endConst.length
    .outcome (.frame n (slice buf 0 n) (finalFlag eos n buf))
  | none =>
    if m ≤ buf.length then .outcome (.discard 1)
    else if eos then .raise .eosIncomplete
    else .outcome .need

/-- The start/end-constant strategy (R510). -/
def splitSE (t : Template) (m : Nat) (buf : Buffer) (eos : Bool) : SplitExit :=
  match startPhase t.start buf eos with
  | some o => .outcome o
  | none => seekEnd t m buf eos

/-- SPLITSE (R510); a length-driven template raises E_STRATEGY (R800 step 4). -/
def execSplitse (eos : Bool) (a : Action) (s : State) : Out :=
  s.withTemplate a fun t =>
    if t.lenDriven then .error .strategy else (splitSE t s.maxFrame s.operands.buf eos).toExcept

/-! ### SPLITLEN (R520) -/

/-- What SPLITLEN's helpers read: the buffer, len(S), M, the end-of-stream flag and the staffing rule. -/
structure SplitCtx where
  buf : Buffer
  startLen : Nat
  max : Nat
  eos : Bool
  rule : Option StaffRule
  deriving DecidableEq, Repr

/-- REQUIRE's exit for wire byte idx, which is past M or past the buffer. -/
def SplitCtx.missing (x : SplitCtx) (idx : Nat) : SplitExit :=
  if x.max ≤ idx then .outcome (.discard x.startLen)
  else if x.eos then .raise .eosIncomplete
  else .outcome .need

/-- `REQUIRE(idx)`: wire byte idx must lie within M and within the buffer. -/
def SplitCtx.require (x : SplitCtx) (idx : Nat) : Except SplitExit Unit :=
  if idx < x.max ∧ idx < x.buf.length then .ok () else .error (x.missing idx)

/-- `SKIP(n)` from pos: the new pos. -/
def SplitCtx.skip (x : SplitCtx) (n pos : Nat) : Except SplitExit Nat :=
  if n = 0 then .ok pos
  else
    match x.require (pos + n - 1) with
    | .ok _ => .ok (pos + n)
    | .error e => .error e

/-- Put a logical byte before what the rest of a field reads. -/
def consField (b : Byte) : Except SplitExit (Buffer × Nat) → Except SplitExit (Buffer × Nat)
  | .ok (bs, pos) => .ok (b :: bs, pos)
  | .error e => .error e

/-- `FIELD(n, true)` under a rule, on the buffer's tail from pos: the logical bytes and the new pos (R520, R605). -/
def SplitCtx.staffedField (x : SplitCtx) (r : StaffRule) : Buffer → Nat → Nat → Except SplitExit (Buffer × Nat)
  | [], n, pos => if n = 0 then .ok ([], pos) else .error (x.missing pos)
  | [b], n, pos =>
    if n = 0 then .ok ([], pos)
    else if x.max ≤ pos then .error (x.missing pos)
    else if r.has b ∧ pos + 1 < x.max ∧ x.eos = false then .error (.outcome .need)
    else if n = 1 then .ok ([b], pos + 1)
    else .error (x.missing (pos + 1))
  | b :: e :: bs, n, pos =>
    if n = 0 then .ok ([], pos)
    else if x.max ≤ pos then .error (x.missing pos)
    else if r.has b ∧ pos + 1 < x.max ∧ e = r.esc then consField b (x.staffedField r bs (n - 1) (pos + 2))
    else consField b (x.staffedField r (e :: bs) (n - 1) (pos + 1))

/-- `FIELD(n, stuffed)` from pos: the logical bytes and the new pos. -/
def SplitCtx.field (x : SplitCtx) (n : Nat) (stuffed : Bool) (pos : Nat) : Except SplitExit (Buffer × Nat) :=
  match stuffed, x.rule with
  | true, some r => x.staffedField r (x.buf.drop pos) n pos
  | _, _ =>
    match x.skip n pos with
    | .ok p => .ok (slice x.buf pos p, p)
    | .error e => .error e

/-- FIELD's new pos, where its bytes are not used. -/
def SplitCtx.passField (x : SplitCtx) (n : Nat) (stuffed : Bool) (pos : Nat) : Except SplitExit Nat :=
  match x.field n stuffed pos with
  | .ok (_, p) => .ok p
  | .error e => .error e

/-- The covered span of N bytes: wire bytes when LC = 1 or no rule is present, else logical bytes (R520, R607). -/
def SplitCtx.span (x : SplitCtx) (countsWire : Bool) (n pos : Nat) : Except SplitExit Nat :=
  if countsWire || x.rule.isNone then x.skip n pos else x.passField n true pos

/-- One suffix token. An uncovered `data#` never stands in a compiled suffix (R410), so it passes nothing. -/
def SplitCtx.suffixToken (x : SplitCtx) (s : State) (pos : Nat) : SuffixToken → Except SplitExit Nat
  | .crc => x.passField (chkLen s) s.crcStaffed pos
  | .const k => x.skip (s.constBytes k).length pos
  | .data => .ok pos

/-- The suffix tokens, in order. -/
def SplitCtx.suffix (x : SplitCtx) (s : State) : List SuffixToken → Nat → Except SplitExit Nat
  | [], pos => .ok pos
  | t :: ts, pos =>
    match x.suffixToken s pos t with
    | .ok p => x.suffix s ts p
    | .error e => .error e

/-- The length field, the covered span and the suffix, from the end of the start constant: the frame's length. -/
def SplitCtx.frameLength (x : SplitCtx) (s : State) (t : Template) : Except SplitExit Nat :=
  match x.field s.lenWidth s.lenStaffed x.startLen with
  | .error e => .error e
  | .ok (lb, pos) =>
    match x.span s.lenCountsWire (uintOf s.lord lb) pos with
    | .error e => .error e
    | .ok pos => x.suffix s t.suffix pos

/-- What SPLITLEN's helpers read, for a template, a buffer and an end-of-stream flag. -/
def splitCtx (s : State) (t : Template) (buf : Buffer) (eos : Bool) : SplitCtx :=
  { buf := buf, startLen := t.start.length, max := s.maxFrame, eos := eos, rule := s.rule }

/-- SPLITLEN after the start phase. -/
def seekLength (s : State) (t : Template) (buf : Buffer) (eos : Bool) : SplitExit :=
  match (splitCtx s t buf eos).frameLength s t with
  | .ok n => .outcome (.frame n (slice buf 0 n) (finalFlag eos n buf))
  | .error e => e

/-- The length-field strategy (R520). -/
def splitLen (s : State) (t : Template) (buf : Buffer) (eos : Bool) : SplitExit :=
  match startPhase t.start buf eos with
  | some o => .outcome o
  | none => seekLength s t buf eos

/-- SPLITLEN (R520); a template that is not length-driven raises E_STRATEGY (R800 step 4). -/
def execSplitlen (eos : Bool) (a : Action) (s : State) : Out :=
  s.withTemplate a fun t =>
    if t.lenDriven then (splitLen s t s.operands.buf eos).toExcept else .error .strategy

end Sys2Proof.Machine
end

