-- ==== Sys2Proof/Machine/Packing.lean ====
section
/-! DEFINITION. The aggregate packers: COUNTBIT, PACK8, PACK16 (spec/41_packing.md). -/

namespace Sys2Proof.Machine

/-! ### COUNTBIT -/

/-- The counter after a non-boolean value of w > 0 bits: byte-aligned, and in a 16-bit grid the pad byte of PACK16
before a value of 2 or more bytes (R300). -/
def countWide (grid w c : Nat) : Nat :=
  let c8 := roundUp c 8
  if grid = 16 ∧ 16 ≤ w ∧ c8 / 8 % 2 = 1 then c8 + 8 + w else c8 + w

/-- The counter after one value of w bits that is not a boolean; a width of 0 counts nothing (R300). -/
def countWidth (grid w c : Nat) : Nat := if w = 0 then c else countWide grid w c

/-- The counter loop of R300 from counter c. -/
def countFrom (grid : Nat) : List Value → Nat → Except Status Nat
  | [], c => .ok c
  | .bool _ :: vs, c => countFrom grid vs (c + 1)
  | v :: vs, c =>
    match lenBit v with
    | .error e => .error e
    | .ok w => countFrom grid vs (countWidth grid w c)

/-- COUNTBIT's result: bits in an 8-bit grid, registers in a 16-bit grid (R300, R301). -/
def countBits (grid : Nat) (vals : List Value) : Except Status Nat :=
  match countFrom grid vals 0 with
  | .ok c => .ok (if grid = 16 then ceilDiv c 16 else c)
  | .error e => .error e

/-- COUNTBIT (R300). -/
def execCountbit (grid : Grid) (s : State) : Out :=
  s.free (match countBits (gridBits grid) s.operands.vals with
    | .ok n => .ok { n := some n }
    | .error c => .error c)

/-! ### PACK8, PACK16 -/

/-- What a packer has emitted, and its bit cursor (R310, R320). -/
structure Packed where
  out : Buffer
  c : Nat
  deriving DecidableEq, Repr

/-- `out[len(out)-1] <- out[len(out)-1] | m`. -/
def orLast (out : Buffer) (m : Byte) : Buffer := out.dropLast ++ [out.getLastD 0 ||| m]

/-- A boolean on a byte boundary opens a new byte; a true one sets its bit (R310, R320). -/
def packBool (b : Bool) (p : Packed) : Packed :=
  let out := if p.c % 8 = 0 then p.out ++ [0x00] else p.out
  { out := if b then orLast out (1 <<< (p.c % 8)) else out, c := p.c + 1 }

/-- PACK16's pad before a value of 2 or more bytes at an odd offset (R320). -/
def packPad (grid : Nat) (bs out : Buffer) : Buffer :=
  if grid = 16 ∧ 2 ≤ bs.length ∧ out.length % 2 = 1 then out ++ [0x00] else out

/-- The bytes of a value that is not a boolean; no bytes emit nothing and leave the cursor (R310, R320). -/
def packBytes (grid : Nat) (bs : Buffer) (p : Packed) : Packed :=
  if bs = [] then p
  else
    let out := packPad grid bs p.out ++ bs
    { out := out, c := 8 * out.length }

/-- The packing loop of R310 (grid 8) and R320 (grid 16). -/
def packFrom (grid : Nat) (ord : Order) : List Value → Packed → Except Status Packed
  | [], p => .ok p
  | .bool b :: vs, p => packFrom grid ord vs (packBool b p)
  | v :: vs, p =>
    match writeValue ord v with
    | .error e => .error e
    | .ok bs => packFrom grid ord vs (packBytes grid bs p)

/-- PACK8's bytes (R310). -/
def pack8Bytes (ord : Order) (vals : List Value) : Except Status Buffer :=
  match packFrom 8 ord vals ⟨[], 0⟩ with
  | .ok p => .ok p.out
  | .error e => .error e

/-- The "extra trailing pad byte" of PACK16 (R320). -/
def padEven (out : Buffer) : Buffer := if out.length % 2 = 1 then out ++ [0x00] else out

/-- PACK16's bytes (R320). -/
def pack16Bytes (ord : Order) (vals : List Value) : Except Status Buffer :=
  match packFrom 16 ord vals ⟨[], 0⟩ with
  | .ok p => .ok (padEven p.out)
  | .error e => .error e

/-- PACK8 (R310). -/
def execPack8 (ord : Order) (s : State) : Out :=
  s.free (match pack8Bytes ord s.operands.vals with
    | .ok bs => .ok { bytes := some bs }
    | .error c => .error c)

/-- PACK16 (R320). -/
def execPack16 (ord : Order) (s : State) : Out :=
  s.free (match pack16Bytes ord s.operands.vals with
    | .ok bs => .ok { bytes := some bs }
    | .error c => .error c)

end Sys2Proof.Machine
end

