-- ==== Sys2Proof/Machine/Template.lean ====
section
/-! DEFINITION. The frame template compiler: COMMIT with its validation (spec/42_template.md). -/

namespace Sys2Proof.Machine

/-! ### COMPILE (R410) -/

/-- The variables of COMPILE's token scan. -/
structure Scan where
  start : Buffer
  endConst : Buffer
  suffix : List SuffixToken
  seen : Bool
  lenDriven : Bool
  lenOffset : Nat
  dataUsed : Bool
  crcUsed : Bool
  inSuffix : Bool
  deriving DecidableEq, Repr

/-- The scan before the first token. -/
def Scan.init : Scan := ⟨[], [], [], false, false, 0, false, false, false⟩

/-- The LEN token. -/
def Scan.onLen (c : Scan) : Except Status Scan :=
  if c.seen then .error .cfgMarkerOrder
  else .ok { c with seen := true, lenDriven := true, lenOffset := c.start.length }

/-- A covered token of a length-driven format. -/
def Scan.covered (c : Scan) : Except Status Scan := if c.inSuffix then .error .cfgCoverOrder else .ok c

/-- A suffix token of a length-driven format. -/
def Scan.addSuffix (c : Scan) (t : SuffixToken) : Except Status Scan :=
  .ok { c with suffix := c.suffix ++ [t], inSuffix := true }

/-- The DATA token. -/
def Scan.onData (cov : List Byte) (c : Scan) : Except Status Scan :=
  if c.dataUsed then .error .cfgDupMarker
  else
    let c := { c with dataUsed := true, seen := true }
    if c.lenDriven then (if dataCode ∈ cov then c.covered else .error .cfgSuffixData) else .ok c

/-- The CRC token. -/
def Scan.onCrc (cov : List Byte) (c : Scan) : Except Status Scan :=
  if c.crcUsed then .error .cfgDupMarker
  else
    let c := { c with crcUsed := true, seen := true }
    if c.lenDriven then (if crcCode ∈ cov then c.covered else c.addSuffix .crc) else .ok c

/-- A CONST k token whose bytes are bs. -/
def Scan.onConst (cov : List Byte) (k : Fin Config.constSlots) (bs : Buffer) (c : Scan) : Except Status Scan :=
  if !c.seen then .ok { c with start := c.start ++ bs }
  else if c.lenDriven then (if tokenCode (.const k) ∈ cov then c.covered else c.addSuffix (.const k))
  else .ok { c with endConst := c.endConst ++ bs }

/-- One token of the scan. A reserved code records nothing: VALIDATE_TOKENS has refused it before COMPILE runs
(R420 step 1, R430; assumption log 9). -/
def Scan.step (cs : ConstTable) (cov : List Byte) (c : Scan) : Token → Except Status Scan
  | .len => c.onLen
  | .data => c.onData cov
  | .crc => c.onCrc cov
  | .const k => c.onConst cov k cs[k].bytes
  | .reserved _ => .ok c

/-- The token scan: the first offending token raises its code (R430). -/
def scanTokens (cs : ConstTable) (cov : List Byte) : List Token → Scan → Except Status Scan
  | [], c => .ok c
  | t :: ts, c =>
    match c.step cs cov t with
    | .ok c' => scanTokens cs cov ts c'
    | .error e => .error e

/-- The checks after the scan, and the template (R410). -/
def Scan.template (c : Scan) : Except Status Template :=
  if c.start = [] then .error .cfgNoStart
  else if c.lenDriven = false ∧ c.endConst = [] then .error .cfgAmbiguousEnd
  else .ok ⟨c.start, c.lenOffset, c.suffix, c.endConst, c.lenDriven⟩

/-- `COMPILE(tokens, cov)` with the constants cs (R410). -/
def compile (cs : ConstTable) (tokens cov : List Byte) : Except Status Template :=
  match scanTokens cs cov (tokensOf tokens) .init with
  | .ok c => c.template
  | .error e => .error e

/-! ### VALIDATE_TOKENS (R420 step 1) -/

/-- Which list a token stands in. -/
inductive ListKind where
  | fmt
  | lenList
  | crcList
  deriving DecidableEq, Repr

/-- The check of one token in one list (R420 step 1). -/
def validateToken (cs : ConstTable) (l : ListKind) : Token → Except Status Unit
  | .reserved _ => .error .cfgToken
  | .const k => if cs[k].valid then .ok () else .error .cfgUnknownConst
  | .len => if l = .lenList then .error .cfgToken else .ok ()
  | .crc => if l = .crcList then .error .cfgToken else .ok ()
  | .data => .ok ()

/-- The tokens of one list, in list order. -/
def validateTokens (cs : ConstTable) (l : ListKind) : List Token → Except Status Unit
  | [] => .ok ()
  | t :: ts =>
    match validateToken cs l t with
    | .ok _ => validateTokens cs l ts
    | .error e => .error e

/-- Two checks, one after the other: the first failing one gives the status. -/
def andThen (x y : Except Status Unit) : Except Status Unit :=
  match x with
  | .ok _ => y
  | .error e => .error e

/-- FMT[a], LENLIST[a], CRCLIST[a], in that order. -/
def validateAction (s : State) (a : Action) : Except Status Unit :=
  andThen (validateTokens s.consts .fmt (tokensOf (s.fmt.get a)))
    (andThen (validateTokens s.consts .lenList (tokensOf (s.lenList.get a)))
      (validateTokens s.consts .crcList (tokensOf (s.crcList.get a))))

/-- VALIDATE_TOKENS, for a in R, W, E. -/
def validateAll (s : State) : Except Status Unit :=
  andThen (validateAction s .r) (andThen (validateAction s .w) (validateAction s .e))

/-! ### VALIDATE_GLOBAL (R420 steps 2 to 6) -/

/-- A length is used: LEN in some FMT or CRCLIST, or some LENLIST non-empty (R420 step 3). -/
def lenUsed (s : State) : Bool :=
  allActions.any fun a => lenCode ∈ s.fmt.get a || lenCode ∈ s.crcList.get a || s.lenList.get a ≠ []

/-- The legal length-field widths (R37). -/
def widthLegal (w : Nat) : Bool := w = 1 || w = 2 || w = 4 || w = 8

/-- At least one template was compiled (R420 step 4). -/
def anyTemplate (t : PerAction (Option Template)) : Bool := allActions.any fun a => (t.get a).isSome

/-- The rule in force, if any, is admitted (R420 step 5, R600). -/
def staffAdmitted (s : State) : Bool :=
  match s.rule with
  | some r => r.admitted
  | none => true

/-- The length counts the staffed size of a checksum that covers the length (R420 step 6). -/
def circular (s : State) : Bool :=
  s.lenCountsWire && s.crcStaffed && s.staffEn &&
    allActions.any fun a => crcCode ∈ s.lenList.get a && lenCode ∈ s.crcList.get a

/-- Steps 2 to 6 of R420, in order. -/
def validateGlobal (s : State) (t : PerAction (Option Template)) : Except Status Unit :=
  if 2 ≤ s.alg then .error .cfgAlg
  else if lenUsed s && !widthLegal s.lenWidth then .error .cfgLenw
  else if anyTemplate t && s.maxFrame = 0 then .error .cfgMax
  else if !staffAdmitted s then .error .cfgStaff
  else if circular s then .error .cfgCircular
  else .ok ()

/-! ### COMMIT (R400) -/

/-- T[a]: the compiled format, or absent when FMT[a] is empty. -/
def compileAction (s : State) (a : Action) : Except Status (Option Template) :=
  if s.fmt.get a = [] then .ok none
  else
    match compile s.consts (s.fmt.get a) (s.lenList.get a) with
    | .ok t => .ok (some t)
    | .error e => .error e

/-- FMT[R], then FMT[W], then FMT[E] (R430). -/
def compileAll (s : State) : Except Status (PerAction (Option Template)) :=
  match compileAction s .r with
  | .error e => .error e
  | .ok r =>
    match compileAction s .w with
    | .error e => .error e
    | .ok w =>
      match compileAction s .e with
      | .error e => .error e
      | .ok e => .ok ⟨r, w, e⟩

/-- The templates COMMIT writes, or the first status of R430 steps 3 to 5. -/
def compiled (s : State) : Except Status (PerAction (Option Template)) :=
  match validateAll s with
  | .error e => .error e
  | .ok _ =>
    match compileAll s with
    | .error e => .error e
    | .ok t =>
      match validateGlobal s t with
      | .error e => .error e
      | .ok _ => .ok t

/-- The registers after a successful COMMIT: the templates, and COMMITTED = 1 (R400). -/
def commitBody (s : State) : Except Status State :=
  match compiled s with
  | .ok t => .ok { s with template := t, ctrl := ctrlWord s.fcode true s.faulted }
  | .error e => .error e

/-- COMMIT (R400). -/
def execCommit (s : State) : Out := s.unlocked (commitBody s)

end Sys2Proof.Machine
end

