-- ==== Sys2Proof/Machine/Dispatch.lean ====
section
/-! DEFINITION. The dispatch: one arm per command, one direct call of its meaning. -/

namespace Sys2Proof.Machine

def exec (i : Instr) (s : State) : Host.Outcome State Fault Refusal :=
  match i with
  | .setconst => Sys2Proof.Machine.execSetconst s
  | .setstaff => Sys2Proof.Machine.execSetstaff s
  | .setcrc => Sys2Proof.Machine.execSetcrc s
  | .setlen => Sys2Proof.Machine.execSetlen s
  | .setfmt a => Sys2Proof.Machine.execSetfmt a s
  | .setcrclist a => Sys2Proof.Machine.execSetcrclist a s
  | .setlenlist a => Sys2Proof.Machine.execSetlenlist a s
  | .setmax => Sys2Proof.Machine.execSetmax s
  | .status => Sys2Proof.Machine.execStatus s
  | .reset => Sys2Proof.Machine.execReset s
  | .type => Sys2Proof.Machine.execType s
  | .lenbit => Sys2Proof.Machine.execLenbit s
  | .write ord => Sys2Proof.Machine.execWrite ord s
  | .check ord grid => Sys2Proof.Machine.execCheck ord grid s
  | .hexdec => Sys2Proof.Machine.execHexdec s
  | .durparse => Sys2Proof.Machine.execDurparse s
  | .countbit grid => Sys2Proof.Machine.execCountbit grid s
  | .pack8 ord => Sys2Proof.Machine.execPack8 ord s
  | .pack16 ord => Sys2Proof.Machine.execPack16 ord s
  | .commit => Sys2Proof.Machine.execCommit s
  | .splitse eos a => Sys2Proof.Machine.execSplitse eos a s
  | .splitlen eos a => Sys2Proof.Machine.execSplitlen eos a s
  | .stuff => Sys2Proof.Machine.execStuff s
  | .unstuff => Sys2Proof.Machine.execUnstuff s
  | .mod256 => Sys2Proof.Machine.execMod256 s
  | .crc16 ord => Sys2Proof.Machine.execCrc16 ord s
  | .chksum => Sys2Proof.Machine.execChksum s
  | .calclen a => Sys2Proof.Machine.execCalclen a s
  | .calccrc a => Sys2Proof.Machine.execCalccrc a s
  | .build a => Sys2Proof.Machine.execBuild a s
  | .verify a => Sys2Proof.Machine.execVerify a s

end Sys2Proof.Machine
end

