-- ==== Sys2Proof/Machine/Assembler.lean ====
section
/-! DEFINITION. The host's assembler: mnemonics and suffixes to commands, the written form of a command, and the
pseudo-commands SPLIT and LOADSTAFF (spec/30_encoding.md R110, R111). The FDC never sees any of it. -/

namespace Sys2Proof.Machine

/-- A suffix of an assembler line (R110). -/
inductive Suffix where
  | be | le | g8 | g16 | eos | r | w | e
  deriving DecidableEq, Repr

/-- A suffix is legal only where R107 admits its field (R110). -/
def Suffix.legal (row : OpRow) : Suffix → Bool
  | .be => row.admitsOrd
  | .le => row.admitsOrd
  | .g8 => row.admitsG16
  | .g16 => row.admitsG16
  | .eos => row.admitsEos
  | .r => row.admitsAct
  | .w => row.admitsAct
  | .e => row.admitsAct

/-- The order the suffixes set; BE by default (R110). -/
def suffixOrder (l : List Suffix) : Order := if .le ∈ l then .le else .be

/-- The grid the suffixes set; G8 by default (R110). -/
def suffixGrid (l : List Suffix) : Grid := if .g16 ∈ l then .g16 else .g8

/-- The action the suffixes set; R by default (R110). -/
def suffixAction (l : List Suffix) : Action := if .w ∈ l then .w else if .e ∈ l then .e else .r

/-- `MNEMONIC[.suffix...]` as a command; none for an unknown mnemonic or a suffix its row does not admit (R110). -/
def assemble (mnemonic : String) (l : List Suffix) : Option Instr :=
  match opTable.find? fun row => row.mnemonic == mnemonic with
  | none => none
  | some row =>
    if l.all (Suffix.legal row) then
      some (row.build (suffixOrder l) (suffixGrid l) (.eos ∈ l) (suffixAction l))
    else none

/-- The set of some byte values (R35). -/
def patternSet (bs : Buffer) : BitVec 256 := bs.foldl (fun p b => p ||| (1#256 <<< b.toNat)) 0

/-- `LOADSTAFF esc=e, pattern=[p1 ... pn]` is `SETSTAFF word=0x100 | e, pat={p1, ..., pn}` (R111). -/
def loadStaff (esc : Byte) (pattern : Buffer) : Command :=
  { word := encode .setstaff, operands := { word := 0x100 ||| esc.setWidth 32, pat := patternSet pattern } }

/-- `SPLIT.a[.EOS] buf=...`: SPLITLEN if FMT[a] contains `len#`, else SPLITSE (R111). -/
def splitCommand (s : State) (a : Action) (eos : Bool) (buf : Buffer) : Command :=
  { word := encode (if lenCode ∈ s.fmt.get a then .splitlen eos a else .splitse eos a),
    operands := { buf := buf } }

/-! ### Written forms (R110) -/

/-- One hex digit. -/
def hexChar (n : Nat) : Char := if n < 10 then Char.ofNat (0x30 + n) else Char.ofNat (0x61 + n - 10)

/-- A byte in hex. -/
def showByte (b : Byte) : String := String.ofList [hexChar (b.toNat / 16), hexChar (b.toNat % 16)]

/-- A buffer "as bytes in hex inside brackets" (R110). -/
def showBuffer (b : Buffer) : String := "[" ++ " ".intercalate (b.map showByte) ++ "]"

/-- A token in a token list: a marker, or `c<k>` (R110); a reserved code is shown in hex. -/
def showToken : Token → String
  | .len => "len#"
  | .data => "data#"
  | .crc => "crc#"
  | .const k => "c" ++ toString k.val
  | .reserved b => showByte b

/-- A token list (R110). -/
def showTokens (l : List Byte) : String := "[" ++ " ".intercalate ((tokensOf l).map showToken) ++ "]"

/-- A kind's name in a typed value (R48, R110). -/
def showKind : NumKind → String
  | .int .i8 => "I8"
  | .int .i16 => "I16"
  | .int .i32 => "I32"
  | .int .i64 => "I64"
  | .int .u8 => "U8"
  | .int .u16 => "U16"
  | .int .u32 => "U32"
  | .int .u64 => "U64"
  | .flt .f32 => "F32"
  | .flt .f64 => "F64"

/-- A byte string between double quotes. R110 shows ASCII text alone: each byte is written as the character of its code,
one above 0x7F and a quote too (assumption log 17, DESIGN CHOICE). -/
def showText (t : Buffer) : String := "\"" ++ String.ofList (t.map fun b => Char.ofNat b.toNat) ++ "\""

/-- A range bound, "none" if absent. -/
def showBound : Option Int → String
  | none => "none"
  | some x => toString x

/-- A typed value as its variant (R110). -/
def showValue : Value → String
  | .empty => "EMPTY"
  | .int k x => showKind (.int k) ++ "(" ++ toString x ++ ")"
  | .flt k b => "FLT(" ++ showKind (.flt k) ++ ", " ++ toString b ++ ")"
  | .rngInt k lo hi => "RNG(" ++ showKind (.int k) ++ ", " ++ showBound lo ++ ", " ++ showBound hi ++ ")"
  | .rngFlt k lo hi =>
    "RNG(" ++ showKind (.flt k) ++ ", " ++ showBound (lo.map Int.ofNat) ++ ", " ++ showBound (hi.map Int.ofNat) ++ ")"
  | .bool b => "BOOL(" ++ toString b ++ ")"
  | .str s => "STR(" ++ showText s ++ ")"
  | .bytes t => "BYTES(" ++ showText t ++ ")"
  | .time t => "TIME(" ++ showText t ++ ")"
  | .err s => "ERR(" ++ showText s ++ ")"

/-- The suffixes of a command (R110). -/
def showOrder : Order → String
  | .be => ".BE"
  | .le => ".LE"

def showGrid : Grid → String
  | .g8 => ".G8"
  | .g16 => ".G16"

def showEos (e : Bool) : String := if e then ".EOS" else ""

def showAction : Action → String
  | .r => ".R"
  | .w => ".W"
  | .e => ".E"

/-- A command's mnemonic with its suffixes (R110). -/
def showInstr : Instr → String
  | .setconst => "SETCONST"
  | .setstaff => "SETSTAFF"
  | .setcrc => "SETCRC"
  | .setlen => "SETLEN"
  | .setfmt a => "SETFMT" ++ showAction a
  | .setcrclist a => "SETCRCLIST" ++ showAction a
  | .setlenlist a => "SETLENLIST" ++ showAction a
  | .setmax => "SETMAX"
  | .status => "STATUS"
  | .reset => "RESET"
  | .type => "TYPE"
  | .lenbit => "LENBIT"
  | .write o => "WRITE" ++ showOrder o
  | .check o g => "CHECK" ++ showOrder o ++ showGrid g
  | .hexdec => "HEXDEC"
  | .durparse => "DURPARSE"
  | .countbit g => "COUNTBIT" ++ showGrid g
  | .pack8 o => "PACK8" ++ showOrder o
  | .pack16 o => "PACK16" ++ showOrder o
  | .commit => "COMMIT"
  | .splitse e a => "SPLITSE" ++ showAction a ++ showEos e
  | .splitlen e a => "SPLITLEN" ++ showAction a ++ showEos e
  | .stuff => "STUFF"
  | .unstuff => "UNSTUFF"
  | .mod256 => "MOD256"
  | .crc16 o => "CRC16" ++ showOrder o
  | .chksum => "CHKSUM"
  | .calclen a => "CALCLEN" ++ showAction a
  | .calccrc a => "CALCCRC" ++ showAction a
  | .build a => "BUILD" ++ showAction a
  | .verify a => "VERIFY" ++ showAction a

end Sys2Proof.Machine
end

