-- ==== Sys2Proof/Machine/HostLoop.lean ====
section
/-! DEFINITION. The host, the second agent that takes steps: its stream-reading loop (spec/43_delimiter.md R540;
spec/10_state.md R30), and its loading of a configuration (spec/46_control.md R811, spec/70_reset_and_hazards.md R952). The transport it reads from is out of scope (R5): what it will give is data in the state. -/

namespace Sys2Proof.Config

open Sys2Proof.Machine

/-- The host's extraction of data, length value and checksum bytes from a delivered frame: R760 leaves it to the host and
gives no procedure. DESIGN CHOICE: a free value, assumption log 6. -/
opaque frameParts : State → Action → Buffer → FrameParts

end Sys2Proof.Config

namespace Sys2Proof.Machine

/-- The loop begins: `stream <- []; eos <- false` (R540). -/
def State.startLoop (s : State) (a : Action) (transport : List TransportRead) (tests : FrameTests) : State :=
  { s with loop := ⟨.issue, a, [], false, transport, [], tests, []⟩ }

/-- `SPLIT.a[.EOS if eos] buf=stream` is issued. -/
def State.loopIssue (s : State) : State :=
  { s with pending := [splitCommand s s.loop.action s.loop.eos s.loop.stream], loop := { s.loop with phase := .await } }

/-- The delivery of frame f begins, with all the host's tests to come. -/
def FrameTests.delivery (t : FrameTests) (f : Buffer) (r : Result) : Delivery :=
  { frame := f, adv := r.adv.getD 0, isFinal := r.isFinal = some true, cur := t.cursor, todo := t.fields,
    verify := t.verifies }

/-- The host reads a split command's result record (R540). A status R540 does not name stops the loop (assumption
log 6, DESIGN CHOICE). -/
def ReadLoop.onResult (l : ReadLoop) (r : Result) : ReadLoop :=
  match r.status, r.frame with
  | .ok, some (some f) => { l with phase := .deliver (l.tests.delivery f r) }
  | .ok, _ =>
    if r.isFinal = some true then { l with phase := .stopped .exhausted }
    else if r.adv.getD 0 = 0 then { l with phase := .reading }
    else { l with phase := .issue, stream := l.stream.drop (r.adv.getD 0) }
  | .eosIncomplete, _ => { l with phase := .stopped .incomplete, verdicts := l.verdicts ++ [r] }
  | c, _ => { l with phase := .stopped (.failed c) }

/-! ### Delivering a frame to the codec (R540) -/

/-- CHECK of one field of the frame, at the threaded cursor or at the field's own (R540, R963). -/
def Delivery.checkCommand (d : Delivery) (t : FrameTests) (f : FieldTest) : Command :=
  { word := encode (.check f.ord f.grid),
    operands := { val := f.val, buf := d.frame, elapsed := t.elapsed, errtext := t.errtext,
                  cur := f.cursor.getD d.cur } }

/-- VERIFY of what the host extracts from the frame (R540, R760). -/
def State.verifyCommand (s : State) (d : Delivery) : Command :=
  let p := Config.frameParts s s.loop.action d.frame
  { word := encode (.verify s.loop.action), operands := { buf := p.data, lenval := p.lenval, buf2 := p.crc } }

/-- The frame is delivered: `stream <- stream[n:]; if fin: stop`. -/
def ReadLoop.endDelivery (l : ReadLoop) (d : Delivery) : ReadLoop :=
  { l with
    phase := if d.isFinal then .stopped .final else .issue,
    stream := l.stream.drop d.adv,
    delivered := l.delivered ++ [d.frame] }

/-- The next test of the frame is issued, or its delivery ends. -/
def State.loopDeliver (s : State) (d : Delivery) : State :=
  match d.todo, d.verify with
  | f :: rest, _ =>
    { s with
      pending := [d.checkCommand s.loop.tests f], loop := { s.loop with phase := .awaitCheck { d with todo := rest } } }
  | [], true =>
    { s with pending := [s.verifyCommand d], loop := { s.loop with phase := .awaitVerify { d with verify := false } } }
  | [], false => { s with loop := s.loop.endDelivery d }

/-- The host keeps a test's result record and threads CHECK's cursor; a record without one leaves the cursor (R963;
assumption log 6). -/
def ReadLoop.onVerdict (l : ReadLoop) (d : Delivery) (r : Result) : ReadLoop :=
  { l with phase := .deliver { d with cur := r.cur.getD d.cur }, verdicts := l.verdicts ++ [r] }

/-- `transport.read()`: it blocks while the transport has nothing to give (R540). -/
def ReadLoop.onRead (l : ReadLoop) : ReadLoop :=
  match l.transport with
  | [] => l
  | .bytes b :: rest => { l with phase := .issue, stream := l.stream ++ b, transport := rest }
  | .endOfStream :: rest => { l with phase := .issue, eos := true, transport := rest }

/-! ### Loading a configuration (R811, R952) -/

/-- The host begins to issue the commands of a loading, in their order. -/
def State.loadCommands (s : State) (cs : List Command) : State := { s with loop := { s.loop with phase := .boot cs } }

/-- The next command of the loading is issued; with none left the host is done. -/
def State.bootIssue (s : State) : List Command → State
  | [] => { s with loop := { s.loop with phase := .idle } }
  | c :: rest => { s with pending := [c], loop := { s.loop with phase := .awaitBoot rest } }

/-- The host reads the result record of a command of the loading. After a fatal status, COMMIT's, it does not proceed
but reads the code (R811, R952 step 3). It confirms that a STATUS answers 0 (R952 step 1). The spec does not say what it
does otherwise, nor after a status that is not fatal: it stops (assumption log 14, DESIGN CHOICE). -/
def ReadLoop.onBoot (l : ReadLoop) (todo : List Command) (r : Result) : ReadLoop :=
  if r.status.fatal then { l with phase := .refused }
  else if r.status ≠ .ok then { l with phase := .stopped (.failed r.status) }
  else if r.stat.getD 0 ≠ 0 then { l with phase := .stopped (.notFresh (r.stat.getD 0)) }
  else { l with phase := .boot todo }

/-- STATUS is issued for the code of the fatal status. -/
def State.codeIssue (s : State) : State :=
  { s with pending := [{ word := encode .status }], loop := { s.loop with phase := .awaitCode } }

/-- The host reports FCODE as STATUS answered it, and stops (R44, R811). -/
def ReadLoop.onCode (l : ReadLoop) (r : Result) : ReadLoop :=
  { l with phase := .stopped (.badConfig ((r.stat.getD 0).extractLsb' 0 8)) }

/-! ### The host's step -/

/-- One step of the host, taken when no command is issued. With nothing to do the machine idles (R916). -/
def State.hostStep (s : State) : State :=
  match s.loop.phase with
  | .idle => s
  | .issue => s.loopIssue
  | .await => { s with loop := s.loop.onResult s.result }
  | .deliver d => s.loopDeliver d
  | .awaitCheck d => { s with loop := s.loop.onVerdict d s.result }
  | .awaitVerify d => { s with loop := s.loop.onVerdict d s.result }
  | .reading => { s with loop := s.loop.onRead }
  | .stopped _ => s
  | .boot todo => s.bootIssue todo
  | .awaitBoot todo => { s with loop := s.loop.onBoot todo s.result }
  | .refused => s.codeIssue
  | .awaitCode => { s with loop := s.loop.onCode s.result }

end Sys2Proof.Machine
end

