-- ==== Sys2Proof/Machine/Step.lean ====
section
/-! DEFINITION. One step of the machine: the FDC executes the oldest issued command, atomically; with none issued, the
host takes a step (spec/10_state.md R30, R32; spec/20_memory.md R90; spec/30_encoding.md R103). -/

namespace Sys2Proof.Machine

/-- One step. An illegal word raises E_ILLEGAL before anything else (R103, R800 step 1, R903). -/
def step (s : State) : Host.Outcome State Fault Refusal :=
  match s.pending with
  | [] => .next s.hostStep
  | c :: _ =>
    match decode c.word with
    | .ok i => exec i s
    | .error _ => .next (s.raise .illegal)

/-- The word stands in the command the FDC takes next: the operand record of a command already issued is kept, and with
none issued the host issues the word with a blank operand record (assumption log 1). -/
def State.withFetchWord (s : State) (nbits w : Nat) : State :=
  match s.pending with
  | [] => { s with pending := [{ word := BitVec.ofNat 32 (w % 2 ^ nbits) }] }
  | c :: rest => { s with pending := { c with word := BitVec.ofNat 32 (w % 2 ^ nbits) } :: rest }

end Sys2Proof.Machine
end

