-- ==== Sys2Proof/Laws/State.lean ====
section
/-! SUPPORT. The fields of State after each shared update: one lemma per field per update, true by definition. -/

namespace Sys2Proof.Machine

section Finish
variable (s : State) (r : Result)

@[simp] theorem State.finish_cfgStaff : (s.finish r).cfgStaff = s.cfgStaff := rfl
@[simp] theorem State.finish_cfgPat : (s.finish r).cfgPat = s.cfgPat := rfl
@[simp] theorem State.finish_cfgCrc : (s.finish r).cfgCrc = s.cfgCrc := rfl
@[simp] theorem State.finish_cfgLen : (s.finish r).cfgLen = s.cfgLen := rfl
@[simp] theorem State.finish_cfgMax : (s.finish r).cfgMax = s.cfgMax := rfl
@[simp] theorem State.finish_consts : (s.finish r).consts = s.consts := rfl
@[simp] theorem State.finish_fmt : (s.finish r).fmt = s.fmt := rfl
@[simp] theorem State.finish_crcList : (s.finish r).crcList = s.crcList := rfl
@[simp] theorem State.finish_lenList : (s.finish r).lenList = s.lenList := rfl
@[simp] theorem State.finish_template : (s.finish r).template = s.template := rfl
@[simp] theorem State.finish_ctrl : (s.finish r).ctrl = s.ctrl := rfl
@[simp] theorem State.finish_result : (s.finish r).result = r := rfl
@[simp] theorem State.finish_pending : (s.finish r).pending = s.pending.tail := rfl
@[simp] theorem State.finish_loop : (s.finish r).loop = s.loop := rfl

end Finish

section Raise
variable (s : State) (c : Status)

@[simp] theorem State.raise_cfgStaff : (s.raise c).cfgStaff = s.cfgStaff := by unfold State.raise; split <;> rfl
@[simp] theorem State.raise_cfgPat : (s.raise c).cfgPat = s.cfgPat := by unfold State.raise; split <;> rfl
@[simp] theorem State.raise_cfgCrc : (s.raise c).cfgCrc = s.cfgCrc := by unfold State.raise; split <;> rfl
@[simp] theorem State.raise_cfgLen : (s.raise c).cfgLen = s.cfgLen := by unfold State.raise; split <;> rfl
@[simp] theorem State.raise_cfgMax : (s.raise c).cfgMax = s.cfgMax := by unfold State.raise; split <;> rfl
@[simp] theorem State.raise_consts : (s.raise c).consts = s.consts := by unfold State.raise; split <;> rfl
@[simp] theorem State.raise_fmt : (s.raise c).fmt = s.fmt := by unfold State.raise; split <;> rfl
@[simp] theorem State.raise_crcList : (s.raise c).crcList = s.crcList := by unfold State.raise; split <;> rfl
@[simp] theorem State.raise_lenList : (s.raise c).lenList = s.lenList := by unfold State.raise; split <;> rfl
@[simp] theorem State.raise_template : (s.raise c).template = s.template := by unfold State.raise; split <;> rfl
@[simp] theorem State.raise_result : (s.raise c).result = { status := c } := by unfold State.raise; split <;> rfl
@[simp] theorem State.raise_pending : (s.raise c).pending = s.pending.tail := by unfold State.raise; split <;> rfl
@[simp] theorem State.raise_loop : (s.raise c).loop = s.loop := by unfold State.raise; split <;> rfl

/-- A fatal status sets FAULTED and FCODE; any other leaves CTRL (R902, R904). -/
theorem State.raise_ctrl :
    (s.raise c).ctrl = if c.fatal then ctrlWord c.code s.committed true else s.ctrl := by
  unfold State.raise; split <;> rfl

/-- A status that is not fatal changes nothing but the result record (R904). -/
theorem State.raise_of_not_fatal (h : c.fatal = false) : s.raise c = s.finish { status := c } := by
  simp [State.raise, h]

end Raise

section ResetRegisters
variable (s : State)

@[simp] theorem State.resetRegisters_cfgStaff : s.resetRegisters.cfgStaff = 0 := rfl
@[simp] theorem State.resetRegisters_cfgPat : s.resetRegisters.cfgPat = 0 := rfl
@[simp] theorem State.resetRegisters_cfgCrc : s.resetRegisters.cfgCrc = 0 := rfl
@[simp] theorem State.resetRegisters_cfgLen : s.resetRegisters.cfgLen = 0 := rfl
@[simp] theorem State.resetRegisters_cfgMax : s.resetRegisters.cfgMax = 0 := rfl
@[simp] theorem State.resetRegisters_consts : s.resetRegisters.consts = State.reset.consts := rfl
@[simp] theorem State.resetRegisters_fmt : s.resetRegisters.fmt = ⟨[], [], []⟩ := rfl
@[simp] theorem State.resetRegisters_crcList : s.resetRegisters.crcList = ⟨[], [], []⟩ := rfl
@[simp] theorem State.resetRegisters_lenList : s.resetRegisters.lenList = ⟨[], [], []⟩ := rfl
@[simp] theorem State.resetRegisters_template : s.resetRegisters.template = ⟨none, none, none⟩ := rfl
@[simp] theorem State.resetRegisters_ctrl : s.resetRegisters.ctrl = 0 := rfl
@[simp] theorem State.resetRegisters_result : s.resetRegisters.result = s.result := rfl
@[simp] theorem State.resetRegisters_pending : s.resetRegisters.pending = s.pending := rfl
@[simp] theorem State.resetRegisters_loop : s.resetRegisters.loop = s.loop := rfl

end ResetRegisters

section SetConst
variable (s : State) (k : Nat) (b : Buffer)

@[simp] theorem State.setConst_cfgStaff : (s.setConst k b).cfgStaff = s.cfgStaff := by unfold State.setConst; split <;> rfl
@[simp] theorem State.setConst_cfgPat : (s.setConst k b).cfgPat = s.cfgPat := by unfold State.setConst; split <;> rfl
@[simp] theorem State.setConst_cfgCrc : (s.setConst k b).cfgCrc = s.cfgCrc := by unfold State.setConst; split <;> rfl
@[simp] theorem State.setConst_cfgLen : (s.setConst k b).cfgLen = s.cfgLen := by unfold State.setConst; split <;> rfl
@[simp] theorem State.setConst_cfgMax : (s.setConst k b).cfgMax = s.cfgMax := by unfold State.setConst; split <;> rfl
@[simp] theorem State.setConst_fmt : (s.setConst k b).fmt = s.fmt := by unfold State.setConst; split <;> rfl
@[simp] theorem State.setConst_crcList : (s.setConst k b).crcList = s.crcList := by unfold State.setConst; split <;> rfl
@[simp] theorem State.setConst_lenList : (s.setConst k b).lenList = s.lenList := by unfold State.setConst; split <;> rfl
@[simp] theorem State.setConst_template : (s.setConst k b).template = s.template := by unfold State.setConst; split <;> rfl
@[simp] theorem State.setConst_ctrl : (s.setConst k b).ctrl = s.ctrl := by unfold State.setConst; split <;> rfl
@[simp] theorem State.setConst_result : (s.setConst k b).result = s.result := by unfold State.setConst; split <;> rfl
@[simp] theorem State.setConst_pending : (s.setConst k b).pending = s.pending := by unfold State.setConst; split <;> rfl
@[simp] theorem State.setConst_loop : (s.setConst k b).loop = s.loop := by unfold State.setConst; split <;> rfl

/-- The table after a SETCONST of a slot that exists (R801). -/
theorem State.setConst_consts (h : k < Config.constSlots) :
    (s.setConst k b).consts = s.consts.set k ⟨true, b⟩ h := by
  simp [State.setConst, h]

end SetConst

/-! ### Register fields after the shared updates -/

@[simp] theorem State.finish_faulted (s : State) (r : Result) : (s.finish r).faulted = s.faulted := rfl
@[simp] theorem State.finish_committed (s : State) (r : Result) : (s.finish r).committed = s.committed := rfl
@[simp] theorem State.finish_fcode (s : State) (r : Result) : (s.finish r).fcode = s.fcode := rfl
@[simp] theorem State.finish_rule (s : State) (r : Result) : (s.finish r).rule = s.rule := rfl

/-! ### Per-action registers -/

@[simp] theorem PerAction.get_set_same {α : Type} (p : PerAction α) (a : Action) (x : α) : (p.set a x).get a = x := by
  cases a <;> rfl

theorem PerAction.get_set_other {α : Type} (p : PerAction α) (a b : Action) (x : α) (h : b ≠ a) :
    (p.set a x).get b = p.get b := by
  cases a <;> cases b <;> first | rfl | exact absurd rfl h

end Sys2Proof.Machine
end

