-- ==== Sys2Proof/Laws/Ops.lean ====
section
/-! SUPPORT. What each shared operation can do, once: the ends of a command, the gates, the CTRL word, the step. -/

namespace Sys2Proof.Machine

/-! ### The CTRL word -/

theorem ctrlWord_fcode (c : Byte) (m f : Bool) : (ctrlWord c m f).extractLsb' 0 8 = c := by
  cases m <;> cases f <;> (apply BitVec.eq_of_getLsbD_eq; intro i hi; simp [ctrlWord]; interval_cases i <;> simp)

theorem ctrlWord_committed (c : Byte) (m f : Bool) : (ctrlWord c m f).getLsbD 8 = m := by
  cases m <;> cases f <;> simp [ctrlWord]

theorem ctrlWord_faulted (c : Byte) (m f : Bool) : (ctrlWord c m f).getLsbD 9 = f := by
  cases m <;> cases f <;> simp [ctrlWord]

/-- Bits 31:10 of the CTRL word are zero (R44). -/
theorem ctrlWord_lt (c : Byte) (m f : Bool) : (ctrlWord c m f).toNat < 2 ^ 10 := by
  have hc : (c.setWidth 32).toNat < 2 ^ 10 := by
    rw [BitVec.toNat_setWidth]
    exact Nat.lt_of_le_of_lt (Nat.mod_le _ _) (Nat.lt_trans c.isLt (by decide))
  have hm : (if m then (0x100 : Word) else 0).toNat < 2 ^ 10 := by cases m <;> decide
  have hf : (if f then (0x200 : Word) else 0).toNat < 2 ^ 10 := by cases f <;> decide
  rw [ctrlWord, BitVec.toNat_or, BitVec.toNat_or]
  exact Nat.or_lt_two_pow (Nat.or_lt_two_pow hc hm) hf

/-! ### Ends of a command -/

/-- A command that changes no register ends with its result record or with its status. -/
theorem State.respond_next {s t : State} {b : Except Status Result} (h : s.respond b = .next t) :
    (∃ r, b = .ok r ∧ t = s.finish r) ∨ (∃ c, b = .error c ∧ t = s.raise c) := by
  cases b with
  | ok r => exact .inl ⟨r, rfl, by simpa [State.respond] using h.symm⟩
  | error c => exact .inr ⟨c, rfl, by simpa [State.respond] using h.symm⟩

/-- A command that writes registers ends with them written or with its status. -/
theorem State.update_next {s t : State} {b : Except Status State} (h : s.update b = .next t) :
    (∃ u, b = .ok u ∧ t = u.finish {}) ∨ (∃ c, b = .error c ∧ t = s.raise c) := by
  cases b with
  | ok u => exact .inl ⟨u, rfl, by simpa [State.update] using h.symm⟩
  | error c => exact .inr ⟨c, rfl, by simpa [State.update] using h.symm⟩

@[simp] theorem State.respond_ok (s : State) (r : Result) : s.respond (.ok r) = .next (s.finish r) := rfl
@[simp] theorem State.respond_error (s : State) (c : Status) : s.respond (.error c) = .next (s.raise c) := rfl
@[simp] theorem State.update_ok (s t : State) : s.update (.ok t) = .next (t.finish {}) := rfl
@[simp] theorem State.update_error (s : State) (c : Status) : s.update (.error c) = .next (s.raise c) := rfl

/-! ### Gates -/

theorem State.free_of_ok {s : State} (h : s.faulted = false) (b : Except Status Result) : s.free b = s.respond b := by
  simp [State.free, h]

theorem State.unlocked_of_open {s : State} (h : s.faulted = false) (hc : s.committed = false)
    (b : Except Status State) : s.unlocked b = s.update b := by
  simp [State.unlocked, h, hc]

theorem State.configured_of_committed {s : State} (h : s.faulted = false) (hc : s.committed = true)
    (b : Except Status Result) : s.configured b = s.respond b := by
  simp [State.configured, h, hc]

theorem State.withTemplate_of_some {s : State} {a : Action} {t : Template} (h : s.faulted = false)
    (hc : s.committed = true) (ht : s.template.get a = some t) (b : Template → Except Status Result) :
    s.withTemplate a b = s.respond (b t) := by
  simp [State.withTemplate, State.configured, h, hc, ht]

/-- Everything a command that needs no configuration can do. -/
theorem State.free_next {s t : State} {b : Except Status Result} (h : s.free b = .next t) :
    (s.faulted = true ∧ t = s.raise .faulted) ∨
      (s.faulted = false ∧ ((∃ r, b = .ok r ∧ t = s.finish r) ∨ (∃ c, b = .error c ∧ t = s.raise c))) := by
  unfold State.free at h
  split at h
  · next hf => exact .inl ⟨hf, by simpa using h.symm⟩
  · next hf => exact .inr ⟨by simpa using hf, State.respond_next h⟩

/-- Everything a SET command or COMMIT can do. -/
theorem State.unlocked_next {s t : State} {b : Except Status State} (h : s.unlocked b = .next t) :
    (s.faulted = true ∧ t = s.raise .faulted) ∨
      (s.faulted = false ∧ s.committed = true ∧ t = s.raise .locked) ∨
      (s.faulted = false ∧ s.committed = false ∧
        ((∃ u, b = .ok u ∧ t = u.finish {}) ∨ (∃ c, b = .error c ∧ t = s.raise c))) := by
  unfold State.unlocked at h
  split at h
  · next hf => exact .inl ⟨hf, by simpa using h.symm⟩
  · next hf =>
    split at h
    · next hc => exact .inr (.inl ⟨by simpa using hf, hc, by simpa using h.symm⟩)
    · next hc => exact .inr (.inr ⟨by simpa using hf, by simpa using hc, State.update_next h⟩)

/-- Everything a command that needs the committed configuration can do. -/
theorem State.configured_next {s t : State} {b : Except Status Result} (h : s.configured b = .next t) :
    (s.faulted = true ∧ t = s.raise .faulted) ∨
      (s.faulted = false ∧ s.committed = false ∧ t = s.raise .notCfg) ∨
      (s.faulted = false ∧ s.committed = true ∧
        ((∃ r, b = .ok r ∧ t = s.finish r) ∨ (∃ c, b = .error c ∧ t = s.raise c))) := by
  unfold State.configured at h
  split at h
  · next hf => exact .inl ⟨hf, by simpa using h.symm⟩
  · next hf =>
    split at h
    · next hc => exact .inr (.inr ⟨by simpa using hf, hc, State.respond_next h⟩)
    · next hc => exact .inr (.inl ⟨by simpa using hf, by simpa using hc, by simpa using h.symm⟩)

/-! ### The step -/

/-- Everything a step can do: the host's turn, E_ILLEGAL, or the decoded command. -/
theorem step_cases {s t : State} (h : step s = .next t) :
    (s.pending = [] ∧ t = s.hostStep) ∨
      (∃ c rest e, s.pending = c :: rest ∧ decode c.word = .error e ∧ t = s.raise .illegal) ∨
      (∃ c rest i, s.pending = c :: rest ∧ decode c.word = .ok i ∧ exec i s = .next t) := by
  unfold step at h
  split at h
  · next hp => exact .inl ⟨hp, by simpa using h.symm⟩
  · next c rest hp =>
    split at h
    · next i hd => exact .inr (.inr ⟨c, rest, i, hp, hd, h⟩)
    · next e hd => exact .inr (.inl ⟨c, rest, e, hp, hd, by simpa using h.symm⟩)

/-- Delivering a frame changes no register and delivers no result. -/
theorem State.loopDeliver_registers (s : State) (d : Delivery) :
    s.loopDeliver d = { s with pending := (s.loopDeliver d).pending, loop := (s.loopDeliver d).loop } := by
  unfold State.loopDeliver
  split <;> rfl

/-- Issuing a command of a loading changes no register and delivers no result. -/
theorem State.bootIssue_registers (s : State) (l : List Command) :
    s.bootIssue l = { s with pending := (s.bootIssue l).pending, loop := (s.bootIssue l).loop } := by
  cases l <;> rfl

/-- The host's turn changes no register and delivers no result. -/
theorem State.hostStep_registers (s : State) :
    s.hostStep = { s with pending := s.hostStep.pending, loop := s.hostStep.loop } := by
  unfold State.hostStep
  split
  case h_4 d _ => exact s.loopDeliver_registers d
  case h_9 l _ => exact s.bootIssue_registers l
  all_goals rfl

/-- What the host does with a result record while it loads a configuration. -/
theorem ReadLoop.onBoot_cases (l : ReadLoop) (todo : List Command) (r : Result) :
    (r.status.fatal = true ∧ l.onBoot todo r = { l with phase := .refused }) ∨
    (r.status.fatal = false ∧ r.status ≠ .ok ∧ l.onBoot todo r = { l with phase := .stopped (.failed r.status) }) ∨
    (r.status = .ok ∧ r.stat.getD 0 ≠ 0 ∧ l.onBoot todo r = { l with phase := .stopped (.notFresh (r.stat.getD 0)) }) ∨
    (r.status = .ok ∧ r.stat.getD 0 = 0 ∧ l.onBoot todo r = { l with phase := .boot todo }) := by
  unfold ReadLoop.onBoot
  by_cases hf : r.status.fatal = true
  · simp [hf]
  · by_cases ho : r.status = .ok
    · by_cases hz : r.stat.getD 0 = 0 <;> simp_all
    · simp_all

/-- What a frame's delivery does next: the next CHECK, the VERIFY, or the end. -/
theorem State.loopDeliver_cases (s : State) (d : Delivery) :
    (∃ f rest, d.todo = f :: rest ∧ (s.loopDeliver d).pending = [d.checkCommand s.loop.tests f] ∧
      (s.loopDeliver d).loop = { s.loop with phase := .awaitCheck { d with todo := rest } }) ∨
    (d.todo = [] ∧ d.verify = true ∧ (s.loopDeliver d).pending = [s.verifyCommand d] ∧
      (s.loopDeliver d).loop = { s.loop with phase := .awaitVerify { d with verify := false } }) ∨
    (d.todo = [] ∧ d.verify = false ∧ (s.loopDeliver d).pending = s.pending ∧
      (s.loopDeliver d).loop = s.loop.endDelivery d) := by
  unfold State.loopDeliver
  split
  · next f rest hd => exact .inl ⟨f, rest, hd, rfl, rfl⟩
  · next hd hv => exact .inr (.inl ⟨hd, hv, rfl, rfl⟩)
  · next hd hv => exact .inr (.inr ⟨hd, hv, rfl, rfl⟩)

end Sys2Proof.Machine
end

