-- ==== Sys2Proof/Machine/HostConfig.lean ====
section
/-! DEFINITION. Configuration loading by the host: the already-parsed configuration surface as a list of commands, and
the boot order (spec/46_control.md R811, spec/70_reset_and_hazards.md R952). Parsing YAML is out of scope (R5). -/

namespace Sys2Proof.Machine

/-- The `staffing` block (R811). -/
structure StaffBlock where
  byte : Buffer
  pattern : List String
  deriving DecidableEq, Repr

/-- The `crc` block (R811). -/
structure CrcBlock where
  algorithm : String
  byteOrder : Order
  staffing : Bool
  deriving DecidableEq, Repr

/-- The `len` block (R811). -/
structure LenBlock where
  staffing : Bool
  countStaffing : Bool
  countBytes : Nat
  deriving DecidableEq, Repr

/-- The configuration surface the core consumes (R811). -/
structure Surface where
  consts : List (String × List Buffer)
  staffing : Option StaffBlock
  crc : Option CrcBlock
  len : Option LenBlock
  formats : PerAction (List String)
  crcLists : PerAction (List String)
  lenLists : PerAction (List String)
  maxFrame : Word
  deriving DecidableEq, Repr

/-- A load-time error of the host. -/
inductive LoadError where
  /-- A constant's hex-literal string is malformed. -/
  | badConstant (name : String)
  /-- The staffing byte does not decode to exactly one byte (R811). -/
  | badStaffByte
  /-- A countBytes that no 4-bit W can hold (R37). -/
  | badCountBytes
  /-- More constants than slots. -/
  | tooManyConstants
  deriving DecidableEq, Repr

/-- The concatenation of HEXDEC of each string, in list order (R811). -/
def hexConcat : List Buffer → Except Status Buffer
  | [] => .ok []
  | t :: ts =>
    match hexDec t, hexConcat ts with
    | .ok b, .ok bs => .ok (b ++ bs)
    | .error e, _ => .error e
    | _, .error e => .error e

/-- The slot of a constant: its position in the `const` mapping. A name that is not there gets the first slot no
constant has, so that COMMIT raises E_CFG_UNKNOWN_CONST (assumption log 14, DESIGN CHOICE). -/
def Surface.slot (c : Surface) (name : String) : Nat :=
  (c.consts.map Prod.fst).findIdx (· == name)

/-- A configuration string as a token code (R106, R811). -/
def Surface.token (c : Surface) (name : String) : Byte :=
  if name = "len#" then lenCode
  else if name = "data#" then dataCode
  else if name = "crc#" then crcCode
  else BitVec.ofNat 8 (0x80 + c.slot name % 128)

/-- One SETCONST per name (R811). -/
def constCommands : List (String × List Buffer) → Nat → Except LoadError (List Command)
  | [], _ => .ok []
  | (name, ts) :: rest, k =>
    match hexConcat ts, constCommands rest (k + 1) with
    | .ok bs, .ok cs => .ok ({ word := encode .setconst, operands := { k := k, buf := bs } } :: cs)
    | .error _, _ => .error (.badConstant name)
    | _, .error e => .error e

/-- The bytes of a named constant; none if the name is not declared or malformed. -/
def Surface.bytesOf (c : Surface) (name : String) : Buffer :=
  match c.consts.lookup name with
  | none => []
  | some ts =>
    match hexConcat ts with
    | .ok bs => bs
    | .error _ => []

/-- One SETSTAFF if there is a `staffing` block, none otherwise (R811). -/
def Surface.staffCommands (c : Surface) : Except LoadError (List Command) :=
  match c.staffing with
  | none => .ok []
  | some b =>
    match hexDec b.byte with
    | .ok [e] => .ok [loadStaff e (b.pattern.flatMap c.bytesOf)]
    | _ => .error .badStaffByte

/-- ALG: 0 for "mod256", 1 for "modBus", 2 for any other string (R811, C7). -/
def algCode (name : String) : Word := if name = "mod256" then 0 else if name = "modBus" then 1 else 2

/-- A one-bit field. -/
def bitAt (n : Nat) (b : Bool) : Word := if b then 1#32 <<< n else 0

/-- CFG_CRC as the `crc` block gives it (R36, R811). -/
def CrcBlock.word (b : CrcBlock) : Word := algCode b.algorithm ||| bitAt 2 (b.byteOrder = .le) ||| bitAt 3 b.staffing

/-- One SETCRC for a `crc` block (R811). R811 does not say what a host without that block does: here it issues no SETCRC,
so that CFG_CRC stays 0, which is mod256 (assumption log 14, DESIGN CHOICE). -/
def Surface.crcCommands (c : Surface) : List Command :=
  match c.crc with
  | none => []
  | some b => [{ word := encode .setcrc, operands := { word := b.word } }]

/-- LORD is the `crc` block's byteOrder (R811), and BE without that block (assumption log 14, DESIGN CHOICE). -/
def Surface.lengthOrder (c : Surface) : Order :=
  match c.crc with
  | some b => b.byteOrder
  | none => .be

/-- CFG_LEN as the `len` block gives it, with W = countBytes, which is below 16 (R37, R811). -/
def LenBlock.word (b : LenBlock) (lord : Order) : Word :=
  BitVec.ofNat 32 b.countBytes ||| bitAt 4 b.staffing ||| bitAt 5 b.countStaffing ||| bitAt 6 (lord = .le)

/-- One SETLEN for a `len` block (R811). R811 does not say what a host without that block does: here it issues no SETLEN,
so that CFG_LEN stays 0 and W is 0 (assumption log 14, DESIGN CHOICE). R811 names 1, 2, 4 and 8 and leaves any other countBytes open: one below
16 goes into W, so that COMMIT raises E_CFG_LENW where a length is used, and a larger one is a load error (assumption
log 14, DESIGN CHOICE). -/
def Surface.lenCommands (c : Surface) : Except LoadError (List Command) :=
  match c.len with
  | none => .ok []
  | some b =>
    if b.countBytes < 16 then .ok [{ word := encode .setlen, operands := { word := b.word c.lengthOrder } }]
    else .error .badCountBytes

/-- SETFMT, SETCRCLIST and SETLENLIST for one action (R811). -/
def Surface.listCommands (c : Surface) (a : Action) : List Command :=
  [{ word := encode (.setfmt a), operands := { tokens := (c.formats.get a).map c.token } },
   { word := encode (.setcrclist a), operands := { tokens := (c.crcLists.get a).map c.token } },
   { word := encode (.setlenlist a), operands := { tokens := (c.lenLists.get a).map c.token } }]

/-- The configuration commands of R811, before COMMIT. R952 leaves their relative order free: the model takes constants,
staffing, checksum, length, the lists of R, W and E, and the maximum (assumption log 14, DESIGN CHOICE). -/
def Surface.setCommands (c : Surface) : Except LoadError (List Command) :=
  if Config.constSlots < c.consts.length then .error .tooManyConstants
  else
    match constCommands c.consts 0, c.staffCommands, c.lenCommands with
    | .ok ks, .ok st, .ok ln =>
      .ok (ks ++ st ++ c.crcCommands ++ ln ++ c.listCommands .r ++ c.listCommands .w ++ c.listCommands .e ++
        [{ word := encode .setmax, operands := { word := c.maxFrame } }])
    | .error e, _, _ => .error e
    | _, .error e, _ => .error e
    | _, _, .error e => .error e

/-- The boot order of R952, steps 1 to 3: RESET, STATUS, the configuration commands, COMMIT. -/
def Surface.boot (c : Surface) : Except LoadError (List Command) :=
  match c.setCommands with
  | .ok cs => .ok ([{ word := encode .reset }, { word := encode .status }] ++ cs ++ [{ word := encode .commit }])
  | .error e => .error e

/-- The host loads a configuration: it issues the commands of the boot order one by one, and on a fatal status of COMMIT
it stops with the code of STATUS (R811, R952). A load-time error issues nothing. -/
def Surface.load (c : Surface) (s : State) : Except LoadError State :=
  match c.boot with
  | .ok cs => .ok (s.loadCommands cs)
  | .error e => .error e

end Sys2Proof.Machine
end

