-- ==== Sys2Proof/WellFormed.lean ====
section
/-! DEFINITION. The ranges that spec/10_state.md R48, R49 and spec/30_encoding.md R104 put on operands. A command's
word fields need no check: `Instr` can hold no reserved value (R101, R102). -/

namespace Sys2Proof.Machine

/-- x is in the range of kind k: `-2^(N-1) .. 2^(N-1)-1` for signed kinds, `0 .. 2^N-1` for unsigned (R48). -/
def IntKind.inRange : IntKind → Int → Bool
  | .i8, x => -2 ^ 7 ≤ x && x < 2 ^ 7
  | .i16, x => -2 ^ 15 ≤ x && x < 2 ^ 15
  | .i32, x => -2 ^ 31 ≤ x && x < 2 ^ 31
  | .i64, x => -2 ^ 63 ≤ x && x < 2 ^ 63
  | .u8, x => 0 ≤ x && x < 2 ^ 8
  | .u16, x => 0 ≤ x && x < 2 ^ 16
  | .u32, x => 0 ≤ x && x < 2 ^ 32
  | .u64, x => 0 ≤ x && x < 2 ^ 64

/-- A bit pattern of kind k: below 2^32 or 2^64 (R48). -/
def FltKind.inRange : FltKind → Nat → Bool
  | .f32, b => b < 2 ^ 32
  | .f64, b => b < 2 ^ 64

/-- Every payload of the value is in its kind's range (R48). -/
def Value.wf : Value → Bool
  | .int k x => k.inRange x
  | .flt k b => k.inRange b
  | .rngInt k lo hi => lo.all k.inRange && hi.all k.inRange
  | .rngFlt k lo hi => lo.all k.inRange && hi.all k.inRange
  | _ => true

/-- The payloads of one integer kind are in range (R48, R49). -/
def Presence.wfInt (k : IntKind) (p : Presence Int) : Bool :=
  p.point.all k.inRange && p.min.all k.inRange && p.max.all k.inRange

/-- The payloads of one float kind are in range (R48, R49). -/
def Presence.wfFlt (k : FltKind) (p : Presence Nat) : Bool :=
  p.point.all k.inRange && p.min.all k.inRange && p.max.all k.inRange

/-- Every payload of the raw value record is in its kind's range (R49). -/
def RawRec.wf (r : RawRec) : Bool :=
  r.i8.wfInt .i8 && r.i16.wfInt .i16 && r.i32.wfInt .i32 && r.i64.wfInt .i64 &&
  r.u8.wfInt .u8 && r.u16.wfInt .u16 && r.u32.wfInt .u32 && r.u64.wfInt .u64 &&
  r.f32.wfFlt .f32 && r.f64.wfFlt .f64

/-- The operand record's typed values are in range (R104). The range 0..127 of `k` is no check here: SETCONST itself
answers a larger k with E_OPERAND (R801). -/
def Operands.wf (o : Operands) : Bool :=
  o.record.wf && o.val.wf && o.vals.all Value.wf

end Sys2Proof.Machine
end

