-- ==== Sys2Proof/Safety.lean ====
section
/-! DEFINITION. The terms claims use: the consistency of a state, a template's invariant, and the spec's own notions
that no operation of the machine computes (well-formed staffed buffers, per-pattern passes, the bit-serial CRC, the
written forms of literals). -/

namespace Sys2Proof.Machine

/-! ### Consistent states -/

/-- Reserved register bits are zero (R34, R36, R37, R44). -/
abbrev State.ReservedZero (s : State) : Prop :=
  s.cfgStaff.toNat < 2 ^ 9 ∧ s.cfgCrc.toNat < 2 ^ 4 ∧ s.cfgLen.toNat < 2 ^ 7 ∧ s.ctrl.toNat < 2 ^ 10

/-- FCODE is 0 until a fatal status is raised, and then that status' code, with nothing committed (R44, R902). -/
abbrev State.FaultLegal (s : State) : Prop :=
  if s.faulted then s.committed = false ∧ 0x20 ≤ s.fcode.toNat ∧ s.fcode.toNat ≤ 0x2C else s.fcode = 0

/-- The templates are those COMMIT compiles from the registers as they stand (R93, R400). -/
def State.templatesAgree (s : State) : Bool :=
  match compiled s with
  | .ok t => t = s.template
  | .error _ => false

/-- Nothing is compiled before COMMIT; after it, the templates agree with the registers (R43, R93, R400). -/
abbrev State.CommitLegal (s : State) : Prop :=
  if s.committed then s.templatesAgree = true else s.template = ⟨none, none, none⟩

/-- An undeclared constant slot holds no bytes (R39, R801). -/
abbrev State.ConstsLegal (s : State) : Prop :=
  ∀ k : Fin Config.constSlots, s.consts[k].valid = false → s.consts[k].bytes = []

/-- The states a run from reset can reach keep all of these. -/
abbrev State.Consistent (s : State) : Prop :=
  s.ReservedZero ∧ s.FaultLegal ∧ s.CommitLegal ∧ s.ConstsLegal

/-- R43's invariant of a template, with what R410 says of the two kinds. -/
abbrev Template.WellFormed (t : Template) : Prop :=
  t.start ≠ [] ∧ (t.lenDriven = true ↔ 0 < t.lenOffset) ∧
    (t.lenDriven = true → t.lenOffset = t.start.length ∧ t.endConst = []) ∧
    (t.lenDriven = false → t.endConst ≠ [] ∧ t.suffix = []) ∧ SuffixToken.data ∉ t.suffix

/-! ### Command words -/

/-- The opcode map of R107 as OP and ADMIT(OP), from spec/opcode_table.json. -/
def admittedFields : List (Byte × Word) :=
  [(0x01, 0x0000), (0x02, 0x0000), (0x03, 0x0000), (0x04, 0x0000), (0x05, 0x1800), (0x06, 0x1800),
   (0x07, 0x1800), (0x08, 0x0000), (0x09, 0x0000), (0x0A, 0x0000), (0x10, 0x0000), (0x11, 0x0000),
   (0x12, 0x0100), (0x13, 0x0300), (0x14, 0x0000), (0x15, 0x0000), (0x20, 0x0200), (0x21, 0x0100),
   (0x22, 0x0100), (0x30, 0x0000), (0x40, 0x1C00), (0x41, 0x1C00), (0x50, 0x0000), (0x51, 0x0000),
   (0x60, 0x0000), (0x61, 0x0100), (0x62, 0x0000), (0x63, 0x1800), (0x64, 0x1800), (0x65, 0x1800),
   (0x66, 0x1800)]

/-- A legal command word (R102): an assigned opcode, no bit outside OP and the admitted fields, and no admitted
ACT = 3. -/
abbrev LegalWord (w : Word) : Prop :=
  ∃ row ∈ admittedFields, w.extractLsb' 0 8 = row.1 ∧ w &&& ~~~row.2 &&& 0xFFFFFF00 = 0 ∧
    ¬(row.2 &&& 0x1800 = 0x1800 ∧ w.extractLsb' 11 2 = 3)

/-! ### Commands and their results -/

/-- The status codes of R900's table. -/
def statusTable : List (Status × Nat) :=
  [(.ok, 0x00), (.illegal, 0x01), (.notCfg, 0x02), (.locked, 0x03), (.faulted, 0x04), (.hex, 0x05), (.writeEmpty, 0x06),
   (.writeNoform, 0x07), (.valueMultikind, 0x08), (.checkOob, 0x09), (.eosIncomplete, 0x0A), (.lenOverflow, 0x0B),
   (.strategy, 0x0C), (.operand, 0x0D), (.cfgUnknownConst, 0x20), (.cfgMarkerOrder, 0x21), (.cfgDupMarker, 0x22),
   (.cfgNoStart, 0x23), (.cfgAmbiguousEnd, 0x24), (.cfgAlg, 0x25), (.cfgLenw, 0x26), (.cfgStaff, 0x27),
   (.cfgSuffixData, 0x28), (.cfgCoverOrder, 0x29), (.cfgToken, 0x2A), (.cfgCircular, 0x2B), (.cfgMax, 0x2C)]

/-- A host that has issued exactly one command: this word with this operand record. -/
def State.issue (s : State) (i : Instr) (o : Operands) : State :=
  { s with pending := [{ word := encode i, operands := o }] }

/-- The state after a command that ends with this result record and changes no register (R88, R904). -/
def State.ended (s : State) (r : Result) : State := { s with result := r, pending := s.pending.tail }

/-- Command i, issued alone with operand record o, completes with result record r and changes no register. -/
abbrev State.Answers (s : State) (i : Instr) (o : Operands) (r : Result) : Prop :=
  exec i (s.issue i o) = .next ((s.issue i o).ended r)

/-- The two states hold the same registers (R34 to R44). -/
abbrev State.SameRegisters (s t : State) : Prop :=
  s.cfgStaff = t.cfgStaff ∧ s.cfgPat = t.cfgPat ∧ s.cfgCrc = t.cfgCrc ∧ s.cfgLen = t.cfgLen ∧ s.cfgMax = t.cfgMax ∧
    s.consts = t.consts ∧ s.fmt = t.fmt ∧ s.crcList = t.crcList ∧ s.lenList = t.lenList ∧ s.template = t.template ∧
    s.ctrl = t.ctrl

/-- Every register holds the value R950 gives it. -/
abbrev State.AtReset (s : State) : Prop :=
  s.cfgStaff = 0 ∧ s.cfgPat = 0 ∧ s.cfgCrc = 0 ∧ s.cfgLen = 0 ∧ s.cfgMax = 0 ∧
    (∀ k : Fin Config.constSlots, s.consts[k] = ⟨false, []⟩) ∧
    s.fmt = ⟨[], [], []⟩ ∧ s.crcList = ⟨[], [], []⟩ ∧ s.lenList = ⟨[], [], []⟩ ∧
    s.template = ⟨none, none, none⟩ ∧ s.ctrl = 0

/-- The SET commands and COMMIT (R800 step 3). -/
def isConfiguring : Instr → Bool
  | .setconst => true
  | .setstaff => true
  | .setcrc => true
  | .setlen => true
  | .setfmt _ => true
  | .setcrclist _ => true
  | .setlenlist _ => true
  | .setmax => true
  | .commit => true
  | _ => false

/-- The commands that need the committed configuration (R800 step 4). -/
def needsCommit : Instr → Bool
  | .stuff => true
  | .unstuff => true
  | .chksum => true
  | .calclen _ => true
  | .calccrc _ => true
  | .build _ => true
  | .verify _ => true
  | .splitse _ _ => true
  | .splitlen _ _ => true
  | _ => false

/-- The action whose template a command needs (R800 step 4). -/
def templateAction : Instr → Option Action
  | .build a => some a
  | .splitse _ a => some a
  | .splitlen _ a => some a
  | _ => none

/-- E_STRATEGY: SPLITSE on a length-driven template, SPLITLEN on one that is not (R800 step 4). -/
def wrongStrategy (t : Template) : Instr → Bool
  | .splitse _ _ => t.lenDriven
  | .splitlen _ _ => !t.lenDriven
  | _ => false

/-- The template gates of R800 step 4 for a command that has an action. -/
def templateGate (s : State) (i : Instr) (a : Action) : Option Status :=
  match s.template.get a with
  | none => some .notCfg
  | some t => if wrongStrategy t i then some .strategy else none

/-- The status the gates of R800, steps 2 to 4, end a command with; none if it passes them. -/
def gateStatus (s : State) (i : Instr) : Option Status :=
  if s.faulted && i ≠ .status && i ≠ .reset then some .faulted
  else if s.committed && isConfiguring i then some .locked
  else if !s.committed && needsCommit i then some .notCfg
  else (templateAction i).bind (templateGate s i)

/-! ### Values -/

/-- The kind codes of the families a raw value record holds fields of: the exact code if `exact_k` is present, else
0x10 more (R105, R200). -/
def numericCode {α : Type} (code : BitVec 5) (p : Presence α) : List (BitVec 5) :=
  if p.point.isSome then [code] else if p.min.isSome || p.max.isSome then [0x10 + code] else []

/-- The kind codes of every family present in the record, in the order of R105. -/
def codesPresent (r : RawRec) : List (BitVec 5) :=
  [numericCode 0x01 r.i8, numericCode 0x02 r.i16, numericCode 0x03 r.i32, numericCode 0x04 r.i64,
   numericCode 0x05 r.u8, numericCode 0x06 r.u16, numericCode 0x07 r.u32, numericCode 0x08 r.u64,
   numericCode 0x09 r.f32, numericCode 0x0A r.f64].flatten ++
  [(r.bool.isSome, 0x0B), (r.string.isSome, 0x0C), (r.byte.isSome, 0x0D), (r.time.isSome, 0x0E),
   (r.error.isSome, 0x0F)].filterMap fun x => if x.1 then some x.2 else none

/-- The payload a round trip gives back (R241). -/
def payload (v : Value) (written : Buffer) : Datum :=
  match v with
  | .int _ x => .int x
  | .flt _ b => .flt b
  | .bool b => .bit b
  | _ => .buf written

/-- The configuration key of an integer kind (R270). -/
def intKey : IntKind → String
  | .i8 => "int8"
  | .i16 => "int16"
  | .i32 => "int32"
  | .i64 => "int64"
  | .u8 => "uint8"
  | .u16 => "uint16"
  | .u32 => "uint32"
  | .u64 => "uint64"

/-- The configuration key of a float kind (R270). -/
def fltKey : FltKind → String
  | .f32 => "float32"
  | .f64 => "float64"

/-- The configuration key of a value's kind; a range has its scalar's (R270). -/
def sourceKey : Value → String
  | .int k _ => intKey k
  | .rngInt k _ _ => intKey k
  | .flt k _ => fltKey k
  | .rngFlt k _ _ => fltKey k
  | .bool _ => "bool"
  | .str _ => "string"
  | .bytes _ => "byte"
  | .time _ => "time"
  | .err _ => "error"
  | .empty => ""

/-- The bytes of a field of 8 bits or more, read as its value's kind (R234). -/
def readAs (ord : Order) (bs : Buffer) : Value → Datum
  | .int k _ => .int (if k.signed then sintOf ord bs else uintOf ord bs)
  | .rngInt k _ _ => .int (if k.signed then sintOf ord bs else uintOf ord bs)
  | .flt _ _ => .flt (uintOf ord bs)
  | .rngFlt _ _ _ => .flt (uintOf ord bs)
  | _ => .buf bs

/-- What was read meets the value's expectation: an exact value's payload, or a range's inclusive bounds (R235, R236). -/
def Meets (v : Value) (got : Datum) : Prop :=
  match v, got with
  | .int _ x, .int g => g = x
  | .flt k b, .flt g => ieeeEq k g b = true
  | .bool b, .bit g => g = b
  | .str t, .buf g => g = t
  | .bytes t, .buf g => hexDec t = .ok g
  | .rngInt _ lo hi, .int g => (∀ m ∈ lo, m ≤ g) ∧ ∀ m ∈ hi, g ≤ m
  | .rngFlt k lo hi, .flt g => (∀ m ∈ lo, ieeeLe k m g = true) ∧ ∀ m ∈ hi, ieeeLe k g m = true
  | _, _ => False

/-- What a report says of the value checked: its kind's key, and the expected side where R240 states it, an exact payload
or a range's bounds. For BYTES, TIME and ERR that side is the model's reading (assumption log 7), for EMPTY a free value
(log 3). -/
def Describes (rep : Report) (v : Value) : Prop :=
  rep.typeName = sourceKey v ∧
    match v with
    | .int _ x => rep.expected = .exactly (.int x)
    | .flt _ b => rep.expected = .exactly (.flt b)
    | .bool b => rep.expected = .exactly (.bit b)
    | .str t => rep.expected = .exactly (.buf t)
    | .rngInt _ lo hi => rep.expected = .range (lo.map .int) (hi.map .int)
    | .rngFlt _ lo hi => rep.expected = .range (lo.map .flt) (hi.map .flt)
    | _ => True

/-- The other byte of byte j's 16-bit register. -/
def otherByte (j : Nat) : Nat := 2 * (j / 2) + 1 - j % 2

/-- CHECK's rounded cursor of a field of width w is c: the least multiple of w not below the cursor (R230). -/
abbrev RoundsTo (cur w c : Nat) : Prop := w ∣ c ∧ cur ≤ c ∧ c < cur + w

/-- Fields of w bits are not mirrored: the 8-bit grid, little-endian, or at least as wide as the grid (R231). -/
abbrev Unmirrored (grid : Grid) (ord : Order) (w : Nat) : Prop := grid = .g8 ∨ ord = .le ∨ 16 ≤ w

/-- A value COUNTBIT counts alike: a range as its scalar, and a value without bytes as the empty string (R300). -/
def countedAs : Value → Value
  | .rngInt k _ _ => .int k 0
  | .rngFlt k _ _ => .flt k 0
  | .empty => .str []
  | .time _ => .str []
  | .err _ => .str []
  | v => v

/-- A buffer with one 0x00 more if its length is odd (R320). -/
def evened (b : Buffer) : Buffer := if b.length % 2 = 1 then b ++ [0x00] else b

/-- A NaN pattern: its magnitude bits exceed those of infinity (R221). -/
abbrev NanPattern (k : FltKind) (bits : Nat) : Prop :=
  (2 ^ k.expBits - 1) * 2 ^ k.fracBits < bits % 2 ^ (k.width - 1)

/-- Reading the pattern as sign and magnitude, a <= b (R236). -/
abbrev SignMagnitudeLe (k : FltKind) (a b : Nat) : Prop :=
  if a < 2 ^ (k.width - 1) then
    (if b < 2 ^ (k.width - 1) then a ≤ b else a = 0 ∧ b = 2 ^ (k.width - 1))
  else (if b < 2 ^ (k.width - 1) then True else b ≤ a)

/-! ### Configuration errors -/

/-- The first status of a list of checks, each with its status if it fails. -/
def firstOf (l : List (Option Status)) : Option Status := l.findSome? id

/-- One check: status c if it fails. -/
def failing (p : Prop) [Decidable p] (c : Status) : Option Status := if p then some c else none

/-- What a token code of a list is refused for, in a list that does not admit the codes `barred`: reserved or barred, or
an undeclared constant (R420 step 1). -/
def codeFault (s : State) (barred : List Byte) (c : Byte) : Option Status :=
  if c = 0x00 ∨ (0x03 < c.toNat ∧ c.toNat < 0x80) ∨ c ∈ barred then some .cfgToken
  else failing (0x80 ≤ c.toNat ∧ s.consts[tokenSlot c].valid = false) .cfgUnknownConst

/-- VALIDATE_TOKENS for one action: its format, length list and checksum list (R420 step 1). -/
def listFaults (s : State) (a : Action) : List (Option Status) :=
  (s.fmt.get a).map (codeFault s []) ++ (s.lenList.get a).map (codeFault s [lenCode]) ++
    (s.crcList.get a).map (codeFault s [crcCode])

/-- A code is a constant's. -/
abbrev IsConst (c : Byte) : Prop := 0x80 ≤ c.toNat

/-- What a format's token c is refused for, behind the tokens `before` (R410): a `len#` behind a marker; a second
`data#` or `crc#`; and behind a `len#`, a covered token that follows an uncovered one, or an uncovered `data#`. -/
def orderFault (cov before : List Byte) (c : Byte) : Option Status :=
  if c = lenCode then failing (∃ b ∈ before, ¬ IsConst b) .cfgMarkerOrder
  else if ¬ IsConst c ∧ c ∈ before then some .cfgDupMarker
  else if lenCode ∈ before then
    (if c ∈ cov then failing (∃ b ∈ (before.dropWhile (· ≠ lenCode)).tail, b ∉ cov) .cfgCoverOrder
     else failing (c = dataCode) .cfgSuffixData)
  else none

/-- The constants before the first marker, and those behind it, one after the other (R410). -/
def startOf (s : State) (fmt : List Byte) : Buffer :=
  (fmt.takeWhile fun c => IsConst c).flatMap fun c => s.constBytes (tokenSlot c)
def endOf (s : State) (fmt : List Byte) : Buffer :=
  ((fmt.dropWhile fun c => IsConst c).filter fun c => IsConst c).flatMap fun c => s.constBytes (tokenSlot c)

/-- The suffix token of a code (R43, R106). -/
def suffixAs (c : Byte) : SuffixToken :=
  if c = dataCode then .data else if c = crcCode then .crc else .const (tokenSlot c)

/-- The template of action a's format in a configuration without error, none for an empty format: length-driven when it
holds `len#`, its suffix the uncovered tokens behind it in order (R400, R410). -/
def templateOf (s : State) (a : Action) : Option Template :=
  let fmt := s.fmt.get a
  let driven := lenCode ∈ fmt
  if fmt = [] then none
  else some {
    start := startOf s fmt
    lenOffset := if driven then (startOf s fmt).length else 0
    suffix := ((fmt.dropWhile (· ≠ lenCode)).tail.filter (· ∉ s.lenList.get a)).map suffixAs
    endConst := if driven then [] else endOf s fmt
    lenDriven := driven }

/-- COMPILE of a non-empty format: its tokens in order, then the start constant, then the frame's end (R410, R430). -/
def formatFaults (s : State) (a : Action) : List (Option Status) :=
  let fmt := s.fmt.get a
  if fmt = [] then []
  else
    (List.range fmt.length).map (fun n => orderFault (s.lenList.get a) (fmt.take n) (fmt.getD n 0)) ++
      [failing (startOf s fmt = []) .cfgNoStart, failing (lenCode ∉ fmt ∧ endOf s fmt = []) .cfgAmbiguousEnd]

/-- A staffing rule that R600 does not admit: ESC in P together with another byte. -/
abbrev BadStaffing (s : State) : Prop :=
  s.staffEn = true ∧ s.cfgPat.getLsbD s.esc.toNat = true ∧ ∃ b : Byte, b ≠ s.esc ∧ s.cfgPat.getLsbD b.toNat = true

/-- The checks over the whole configuration (R420 steps 2 to 6). -/
def globalFaults (s : State) : List (Option Status) :=
  [failing (2 ≤ s.alg) .cfgAlg,
   failing ((∃ a ∈ allActions, lenCode ∈ s.fmt.get a ∨ lenCode ∈ s.crcList.get a ∨ s.lenList.get a ≠ []) ∧
     s.lenWidth ∉ [1, 2, 4, 8]) .cfgLenw,
   failing ((∃ a ∈ allActions, s.fmt.get a ≠ []) ∧ s.maxFrame = 0) .cfgMax,
   failing (BadStaffing s) .cfgStaff,
   failing ((∃ a ∈ allActions, crcCode ∈ s.lenList.get a ∧ lenCode ∈ s.crcList.get a) ∧ s.lenCountsWire = true ∧
     s.crcStaffed = true ∧ s.staffEn = true) .cfgCircular]

/-- The first error of the configuration, in the order of R430; none if COMMIT accepts it. -/
def commitFault (s : State) : Option Status :=
  firstOf (allActions.flatMap (listFaults s) ++ allActions.flatMap (formatFaults s) ++ globalFaults s)

/-! ### Frames -/

/-- The length of a buffer on the wire: one escape byte for each pattern byte (R601). -/
def stuffedLength (rule : Option StaffRule) (b : Buffer) : Nat :=
  match rule with
  | none => b.length
  | some r => b.length + b.countP (fun x => r.has x)

/-- What a LENLIST token code adds to the length (R730). -/
def lengthOf (s : State) (a : Action) (data : Buffer) (code : Byte) : Nat :=
  if code = 0x02 then (if s.lenCountsWire then stuffedLength s.rule data else data.length)
  else if code = 0x03 then
    (if s.lenCountsWire && s.crcStaffed then stuffedLength s.rule (crcOver s a data 0) else chkLen s)
  else (s.constBytes (tokenSlot code)).length

/-- The logical bytes a CRCLIST token code contributes (R740). -/
def logicalBytes (s : State) (data : Buffer) (lenval : Nat) (code : Byte) : Buffer :=
  if code = 0x01 then bytesOf s.lord s.lenWidth lenval
  else if code = 0x02 then data
  else s.constBytes (tokenSlot code)

/-- The logical bytes a checksum of action a covers (R740). -/
def coveredBuffer (s : State) (a : Action) (data : Buffer) (lenval : Nat) : Buffer :=
  (s.crcList.get a).flatMap (logicalBytes s data lenval)

/-- The wire bytes of an FMT token code, for length value l and checksum c (R606, R750). -/
def frameBytes (s : State) (data : Buffer) (l : Nat) (c : Buffer) (code : Byte) : Buffer :=
  if code = 0x01 then
    (if s.lenStaffed then stuffing s.rule (bytesOf s.lord s.lenWidth l) else bytesOf s.lord s.lenWidth l)
  else if code = 0x02 then stuffing s.rule data
  else if code = 0x03 then (if s.crcStaffed then stuffing s.rule c else c)
  else s.constBytes (tokenSlot code)

/-- The codes of constant tokens. -/
def constCodes (ks : List (Fin Config.constSlots)) : List Byte := ks.map fun k => tokenCode (.const k)

/-- The bytes of constants, one after the other. -/
def constConcat (s : State) (ks : List (Fin Config.constSlots)) : Buffer := ks.flatMap s.constBytes

/-- The code of a suffix token (R106). -/
def suffixCode : SuffixToken → Byte
  | .data => dataCode
  | .crc => crcCode
  | .const k => tokenCode (.const k)

/-- Every constant of the list is declared. -/
abbrev Declared (s : State) (ks : List (Fin Config.constSlots)) : Prop := ∀ k ∈ ks, s.consts[k].valid = true

/-- Only action a has the list l; the other two are empty. -/
def onlyFor {α : Type} (a : Action) (l : List α) : PerAction (List α) := PerAction.set ⟨[], [], []⟩ a l

/-- The split command of a template: SPLITLEN if it is length-driven, else SPLITSE. -/
def splitOf (t : Template) (eos : Bool) (a : Action) : Instr := if t.lenDriven then .splitlen eos a else .splitse eos a

/-- A frame of n bytes ends with the end constant, which lies behind the start constant (R510). -/
abbrev EndsAt (t : Template) (buf : Buffer) (n : Nat) : Prop :=
  t.start.length + t.endConst.length ≤ n ∧ n ≤ buf.length ∧ t.endConst <:+ buf.take n

/-- The wire bytes a suffix token adds when no staffing rule is present (R520, R521). -/
def suffixLength (s : State) : SuffixToken → Nat
  | .data => 0
  | .crc => chkLen s
  | .const k => (s.constBytes k).length

/-- What SPLITLEN ends with at a frame that needs n bytes where the buffer does not have them or M does not admit them:
one past M drops the start constant; one within M needs more bytes, or fails at end of stream (R520). -/
def lacking (s : State) (t : Template) (eos : Bool) (n : Nat) : Result :=
  if s.maxFrame < n then { adv := some t.start.length, frame := some none, isFinal := some false }
  else if eos then { status := .eosIncomplete }
  else { adv := some 0, frame := some none, isFinal := some false }

/-- A staffed buffer cut into what each logical byte takes on the wire: a pattern byte with the ESC behind it, or one
byte (R602, R605). -/
def units (r : StaffRule) : Buffer → List Buffer
  | [] => []
  | [b] => [[b]]
  | b :: e :: bs => if r.has b ∧ e = r.esc then [b, e] :: units r bs else [b] :: units r (e :: bs)

/-- The units from wire position pos on, of the buffer's bytes within M. -/
def unitsFrom (s : State) (r : StaffRule) (buf : Buffer) (pos : Nat) : List Buffer :=
  units r ((buf.take s.maxFrame).drop pos)

/-- A field of n staffed bytes is not there: too few units, or the last one is a pattern byte at the buffer's end, within
M, whose ESC may still come (R520). -/
abbrev Unfinished (s : State) (r : StaffRule) (eos : Bool) (buf : Buffer) (n : Nat) (us : List Buffer) : Prop :=
  us.length < n ∨ (us.length = n ∧ buf.length < s.maxFrame ∧ eos = false ∧ ∃ u ∈ us.getLast?, ∃ b, u = [b] ∧ r.has b = true)

/-- Where n bytes from wire position pos end, staffed or not, or what SPLITLEN ends with if the buffer or M does not hold
them (R520, R605). -/
def partEnd (s : State) (t : Template) (eos : Bool) (buf : Buffer) (n : Nat) (staffed : Bool) (pos : Nat) :
    Except Result Nat :=
  match (if staffed then s.rule else none) with
  | none => if n = 0 ∨ pos + n ≤ min buf.length s.maxFrame then .ok (pos + n) else .error (lacking s t eos (pos + n))
  | some r =>
    let us := unitsFrom s r buf pos
    if n ≠ 0 ∧ Unfinished s r eos buf n us then .error (lacking s t eos (min buf.length s.maxFrame + 1))
    else .ok (pos + (us.take n).flatten.length)

/-- Where parts end that stand one behind the other, each a number of bytes and whether they are staffed. -/
def partsEnd (s : State) (t : Template) (eos : Bool) (buf : Buffer) : List (Nat × Bool) → Nat → Except Result Nat
  | [], pos => .ok pos
  | p :: ps, pos =>
    match partEnd s t eos buf p.1 p.2 pos with
    | .ok pos => partsEnd s t eos buf ps pos
    | .error e => .error e

/-- The logical bytes of the length field at pos (R520, R606). -/
def lengthField (s : State) (buf : Buffer) (pos : Nat) : Buffer :=
  match (if s.lenStaffed then s.rule else none) with
  | none => (buf.drop pos).take s.lenWidth
  | some r => ((unitsFrom s r buf pos).take s.lenWidth).flatMap (·.take 1)

/-- A suffix token's bytes (R520, R606, R721). -/
def suffixPart (s : State) : SuffixToken → Nat × Bool
  | .data => (0, false)
  | .crc => (chkLen s, s.crcStaffed)
  | .const k => ((s.constBytes k).length, false)

/-- Where SPLITLEN's frame ends in a buffer that begins with the start constant, or what it ends with: the length field,
as many bytes as it says, wire bytes under LC = 1 and else logical ones, and the suffix (R520). -/
def frameEnd (s : State) (t : Template) (eos : Bool) (buf : Buffer) : Except Result Nat :=
  match partEnd s t eos buf s.lenWidth s.lenStaffed t.start.length with
  | .error e => .error e
  | .ok pos =>
    partsEnd s t eos buf
      ((uintOf s.lord (lengthField s buf t.start.length), !s.lenCountsWire) :: t.suffix.map (suffixPart s)) pos

/-! ### The host's read loop -/

/-- The split commands the host's loop issues in the next k steps: one at each step it takes in the phase `issue`
(R540). -/
def splitsIssued : Nat → State → Nat
  | 0, _ => 0
  | k + 1, s =>
    (if s.pending = [] ∧ s.loop.phase = .issue then 1 else 0) +
      match step s with
      | .next t => splitsIssued k t
      | _ => 0

/-- The steps a frame's delivery takes: three for each CHECK and for a VERIFY, and one that drops the frame (assumption
log 6). -/
def deliverySteps (t : FrameTests) : Nat := 3 * t.fields.length + (if t.verifies then 3 else 0) + 1

/-! ### Staffing -/

/-- A well-formed staffed buffer: read left to right, every pattern byte is followed by its ESC (R604). -/
def wellStaffed (r : StaffRule) : Buffer → Bool
  | [] => true
  | [b] => !r.has b
  | b :: e :: bs => if r.has b then e = r.esc && wellStaffed r bs else wellStaffed r (e :: bs)

/-- The source's insertion pass for one pattern byte: "replace every raw occurrence" (R603). -/
def insertPass (esc p : Byte) (b : Buffer) : Buffer := b.flatMap fun x => if x = p then [x, esc] else [x]

/-- The source's removal pass for one pattern byte: `p ESC` by `p`, left to right, without overlap (R603). -/
def removePass (esc p : Byte) : Buffer → Buffer
  | [] => []
  | [b] => [b]
  | b :: e :: bs => if b = p ∧ e = esc then b :: removePass esc p bs else b :: removePass esc p (e :: bs)

/-- `STUFF_doc` for the pattern bytes in the order given (R603). -/
def insertPasses (esc : Byte) (ps : List Byte) (b : Buffer) : Buffer := ps.foldl (fun b p => insertPass esc p b) b

/-- `UNSTUFF_doc` for the pattern bytes in the order given (R603). -/
def removePasses (esc : Byte) (ps : List Byte) (b : Buffer) : Buffer := ps.foldl (fun b p => removePass esc p b) b

/-! ### CRC-16, bit by bit -/

/-- One byte of the bit-serial form: `c <- c xor b`, then eight shift steps (R711). -/
def crcSerialByte (c : BitVec 16) (b : Byte) : BitVec 16 :=
  (List.range 8).foldl (fun c _ => if c.getLsbD 0 then (c >>> 1) ^^^ 0xA001 else c >>> 1) (c ^^^ b.setWidth 16)

/-- The bit-serial CRC-16 of a buffer (R711). -/
def crcSerial (b : Buffer) : BitVec 16 := b.foldl crcSerialByte 0xFFFF

/-! ### Written literals -/

/-- The ASCII hex digit of a number below 16, in capitals or not. -/
def hexAscii (capital : Bool) (n : Nat) : Byte :=
  if n < 10 then BitVec.ofNat 8 (0x30 + n) else BitVec.ofNat 8 ((if capital then 0x41 else 0x61) + n - 10)

/-- One byte as a hex literal "0xHH " (R250). -/
def hexLiteralByte (capital : Bool) (b : Byte) : Buffer :=
  [0x30, if capital then 0x58 else 0x78, hexAscii capital (b.toNat / 16), hexAscii capital (b.toNat % 16), 0x20]

/-- A buffer as a hex literal "0xHH 0xHH " (R250). -/
def hexLiteral (capital : Bool) (bs : Buffer) : Buffer := bs.flatMap (hexLiteralByte capital)

/-- An ASCII hex digit, capital or not (R250). -/
abbrev HexChar (b : Byte) : Prop := ∃ capital : Bool, ∃ n < 16, b = hexAscii capital n

/-- An "x" in either case. -/
abbrev IsX (b : Byte) : Prop := b = 0x78 ∨ b = 0x58

/-- What HEXDEC deletes: "0x" in either case, and a space (R250). -/
def hexFillers : List Buffer := [[0x30, 0x78], [0x30, 0x58], [0x20]]

/-- A text of hex digits, in order, with fillers anywhere before, between and behind them (R250). -/
inductive HexText : List Nat → Buffer → Prop
  | nil : HexText [] []
  | filler {ds : List Nat} {t f : Buffer} : f ∈ hexFillers → HexText ds t → HexText ds (f ++ t)
  | digit {ds : List Nat} {t : Buffer} {n : Nat} (capital : Bool) :
      n < 16 → HexText ds t → HexText (n :: ds) (hexAscii capital n :: t)

/-- The bytes of digits taken in pairs; a last one alone is ignored (R250). -/
def pairedBytes : List Nat → Buffer
  | a :: b :: ds => BitVec.ofNat 8 (16 * a + b) :: pairedBytes ds
  | _ => []

/-- The decimal digits of a text, most significant first, as ASCII. -/
def asciiDigits (ds : List (Fin 10)) : Buffer := ds.map fun d => BitVec.ofNat 8 (0x30 + d.val)

/-- The number those digits denote. -/
def digitsValue (ds : List (Fin 10)) : Nat := ds.foldl (fun n d => 10 * n + d.val) 0

/-- The duration units: their ASCII symbols and their nanoseconds (R260). -/
def durationUnits : List (Buffer × Nat) :=
  [([0x6E, 0x73], 1), ([0x75, 0x73], 10 ^ 3), ([0x6D, 0x73], 10 ^ 6), ([0x73], 10 ^ 9), ([0x6D], 6 * 10 ^ 10),
    ([0x68], 36 * 10 ^ 11)]

/-- A text of R260's grammar: nothing, digits, or a unit behind nothing, digits or digits with a point and a fraction. -/
def DurationText (t : Buffer) : Prop :=
  t = [] ∨ (∃ ds, ds ≠ [] ∧ t = asciiDigits ds) ∨
    ∃ u ∈ durationUnits, t = u.1 ∨ ∃ ds, ds ≠ [] ∧
      (t = asciiDigits ds ++ u.1 ∨ ∃ fs, t = asciiDigits ds ++ [0x2E] ++ asciiDigits fs ++ u.1)

/-- DURPARSE's answer for an exact number of nanoseconds: -1 on overflow (R260). -/
def durationResult (v : Nat) : BitVec 64 := if v ≤ 2 ^ 63 - 1 then BitVec.ofNat 64 v else -1

end Sys2Proof.Machine
end

