-- ==== Sys2Proof/Certificates/Slice0/Obligations.lean ====
section
/-! DEFINITION. The statements for the provers. `s.ended r` is s after a command that delivers the result record r and
changes no register; `s.issue i o` is s with exactly the command i, with operand record o, issued. -/

open Sys2Proof Sys2Proof.Machine

/-! ### Command words and the step -/

/-- R103, R107, R108: a word decodes to a command exactly when it is the word the encoding tables give that command, so
no bit of a word is dropped and no two commands share one. -/
def Obligations.DecodeIsInverseOfEncode : Prop :=
  ∀ (w : Word) (i : Instr), decode w = .ok i ↔ encode i = w

/-- R100, R107, R110: words written out field by field from the encoding decode to the commands they stand for, one for
each family. -/
def Obligations.WrittenWordsDecode : Prop :=
  decodeTableWord 32 0b0000000000000000000_01_0_0_0_00000101 = some (.setfmt .w) ∧
  decodeTableWord 32 0b0000000000000000000_00_0_1_1_00010011 = some (.check .le .g16) ∧
  decodeTableWord 32 0b0000000000000000000_00_0_1_0_00100000 = some (.countbit .g16) ∧
  decodeTableWord 32 0b0000000000000000000_00_0_0_0_00110000 = some .commit ∧
  decodeTableWord 32 0b0000000000000000000_10_1_0_0_01000000 = some (.splitse true .e) ∧
  decodeTableWord 32 0b0000000000000000000_00_0_0_0_01010001 = some .unstuff ∧
  decodeTableWord 32 0b0000000000000000000_10_0_0_0_01100110 = some (.verify .e) ∧
  decodeTableWord 32 0b0000000000000000000_11_0_0_0_01100110 = none

/-- R102: a word that is not legal raises E_ILLEGAL and changes nothing else; every other word decodes. -/
def Obligations.IllegalWordsRaiseIllegal : Prop :=
  ∀ (s : State) (c : Command) (rest : List Command), s.pending = c :: rest →
    (¬ LegalWord c.word → step s = .next (s.ended { status := .illegal })) ∧
    (LegalWord c.word → ∃ i, decode c.word = .ok i ∧ step s = exec i s)

/-- R30, R32, R90: when a command is issued and its word decodes, the step is that command's execution, and nothing is
added around it. -/
def Obligations.StepRunsDecodedCommand : Prop :=
  ∀ (s : State) (c : Command) (rest : List Command) (i : Instr), s.pending = c :: rest → decode c.word = .ok i →
    step s = exec i s

/-- R12, R904, R908: no step stops the machine; every command ends with a result record, whatever the state. That R12's
outcomes are all next states is assumption log 13 (DEDUCED). That a command's end takes it, and nothing else, off the
list of issued commands is the model's own (assumption log 1), and that RESET does no more to that list or to the host's
loop is assumption log 8 (DEDUCED). -/
def Obligations.EveryStepCompletes : Prop :=
  (∀ s : State, ∃ t, step s = .next t) ∧
  (∀ (i : Instr) (s : State), ∃ t, exec i s = .next t ∧ t.pending = s.pending.tail ∧ t.loop = s.loop)

/-! ### Invariants and the whole machine -/

/-- R34, R36, R37, R39, R43, R44, R93, R902: a step from a consistent state gives a consistent one. -/
def Obligations.StepKeepsConsistent : Prop :=
  ∀ s t : State, s.Consistent → step s = .next t → t.Consistent

/-- R950: the state after power-on is consistent. -/
def Obligations.ResetIsConsistent : Prop := State.reset.Consistent

/-- R43, R410, R420: a template of a consistent state has R43's invariant, is length-driven exactly when its format
holds `len#` (which makes SPLIT's expansion sound, R111), and stands beside a legal length width and a non-zero M. -/
def Obligations.ConsistentTemplatesWellFormed : Prop :=
  ∀ (s : State) (a : Action) (t : Template), s.Consistent → s.template.get a = some t →
    t.WellFormed ∧ (t.lenDriven = true ↔ lenCode ∈ s.fmt.get a) ∧ s.committed = true ∧ 0 < s.maxFrame ∧
      (t.lenDriven = true → s.lenWidth = 1 ∨ s.lenWidth = 2 ∨ s.lenWidth = 4 ∨ s.lenWidth = 8)

/-- R93, R911, R961: once committed, no register changes, whatever step is taken, unless the step is RESET. -/
def Obligations.CommittedRegistersAreLocked : Prop :=
  ∀ s t : State, s.committed = true → step s = .next t →
    s.SameRegisters t ∨ ∃ c rest, s.pending = c :: rest ∧ c.word = 0x0000000A

/-- R900, R901: the statuses have the codes of the table; exactly the codes 0x20 to 0x2C are fatal, and only COMMIT ends
with one. -/
def Obligations.OnlyCommitRaisesFatal : Prop :=
  (∀ c : Status, (c, c.code.toNat) ∈ statusTable) ∧
  (∀ c : Status, c.fatal = true ↔ 0x20 ≤ c.code.toNat ∧ c.code.toNat ≤ 0x2C) ∧
  (∀ (i : Instr) (s t : State), exec i s = .next t → t.result.status.fatal = true → i = .commit)

/-- R904: a command, its word legal or not, that ends with a status other than OK writes only `status` and changes no
state, but for the fault fields of R902; it is the command issued that ends. -/
def Obligations.FailingCommandIsPrecise : Prop :=
  ∀ (s t : State) (c : Command) (rest : List Command), s.pending = c :: rest → step s = .next t →
    t.result.status ≠ .ok →
    t.result = { status := t.result.status } ∧
    t = { s with ctrl := t.ctrl, result := t.result, pending := rest } ∧
    (t.result.status.fatal = false → t.ctrl = s.ctrl) ∧
    (t.result.status.fatal = true →
      t.faulted = true ∧ t.fcode = t.result.status.code ∧ t.committed = s.committed)

/-- R902: a fatal status sets FAULTED and FCODE and nothing else changes, COMMITTED staying 0; and while FAULTED every
command but STATUS and RESET raises E_FAULTED and changes nothing. -/
def Obligations.FatalFaultIsSticky : Prop :=
  (∀ (i : Instr) (s t : State), exec i s = .next t → t.result.status.fatal = true →
    t.faulted = true ∧ t.fcode = t.result.status.code ∧ t.committed = false ∧
    t = { s with ctrl := t.ctrl, result := { status := t.result.status }, pending := s.pending.tail }) ∧
  (∀ (i : Instr) (s : State), s.faulted = true → i ≠ .status → i ≠ .reset →
    exec i s = .next (s.ended { status := .faulted }))

/-- R800 steps 2 to 4, R903: the first gate a command fails gives its status, and nothing else changes; a command that
passes them all ends with none of the gates' statuses. -/
def Obligations.GatesComeFirst : Prop :=
  ∀ (i : Instr) (s : State),
    (∀ c, gateStatus s i = some c → exec i s = .next (s.ended { status := c })) ∧
    (gateStatus s i = none → ∃ t, exec i s = .next t ∧
      t.result.status ∉ [Status.illegal, .faulted, .locked, .notCfg, .strategy])

/-- R88: a command that is neither a SET command, COMMIT nor RESET changes no register, unless it raises a status (R904
covers that). -/
def Obligations.OtherCommandsKeepRegisters : Prop :=
  ∀ (i : Instr) (s t : State), isConfiguring i = false → i ≠ .reset → exec i s = .next t → t = s.ended t.result

/-- R31, R47, R88: what a command answers and writes depends on the registers and its operand record alone: not on an
earlier result, on what else is issued, nor on the host's loop. -/
def Obligations.CommandsSeeRegistersAndOperandsOnly : Prop :=
  ∀ (i : Instr) (s s' t : State), s.SameRegisters s' → s.operands = s'.operands → exec i s = .next t →
    ∃ t', exec i s' = .next t' ∧ t'.result = t.result ∧ t.SameRegisters t'

/-! ### Control -/

/-- R950, R810: after power-on, and after RESET in any state, every register holds the value of the table; RESET ends
with OK. That it leaves what the host holds, the other issued commands and the read loop, is the model's own reading
(assumption log 8, DEDUCED). -/
def Obligations.ResetRestoresEveryRegister : Prop :=
  State.reset.AtReset ∧
  ∀ s : State, ∃ t, exec .reset s = .next t ∧ t.AtReset ∧ t.result = { status := .ok } ∧
    t.pending = s.pending.tail ∧ t.loop = s.loop

/-- R809: STATUS answers FCODE in bits 7:0, COMMITTED in bit 8, FAULTED in bit 9 and zeros above, in every state. -/
def Obligations.StatusReadsControl : Prop :=
  ∀ s : State, ∃ w : Word, exec .status s = .next (s.ended { stat := some w }) ∧
    w.toNat = s.fcode.toNat + (if s.committed then 256 else 0) + (if s.faulted then 512 else 0)

/-- R801: SETCONST makes slot k valid with the operand's bytes, and leaves every other slot and register; k > 127 raises
E_OPERAND, and nothing is written. -/
def Obligations.SetconstWritesItsSlot : Prop :=
  ∀ s : State, s.faulted = false → s.committed = false →
    (s.operands.k ≤ 127 →
      ∃ t, exec .setconst s = .next t ∧
        t = { s with consts := t.consts, result := {}, pending := s.pending.tail } ∧
        ∀ j : Fin Config.constSlots,
          t.consts[j] = if j.val = s.operands.k then ⟨true, s.operands.buf⟩ else s.consts[j]) ∧
    (127 < s.operands.k → exec .setconst s = .next (s.ended { status := .operand }))

/-- R802, R803, R804, R808: SETSTAFF, SETCRC, SETLEN and SETMAX write their registers from an operand word whose
reserved bits are zero, and nothing else; a set reserved bit raises E_OPERAND, and nothing is written. R34, R36, R37,
R38, R46: the fields of those registers are the word's bits at these places. -/
def Obligations.SetWordCommandsWriteRegisters : Prop :=
  ∀ s : State, s.faulted = false → s.committed = false →
    exec .setstaff s = .next (if s.operands.word.toNat < 2 ^ 9 then
      { s with cfgStaff := s.operands.word, cfgPat := s.operands.pat, result := {}, pending := s.pending.tail }
      else s.ended { status := .operand }) ∧
    exec .setcrc s = .next (if s.operands.word.toNat < 2 ^ 4 then
      { s with cfgCrc := s.operands.word, result := {}, pending := s.pending.tail }
      else s.ended { status := .operand }) ∧
    exec .setlen s = .next (if s.operands.word.toNat < 2 ^ 7 then
      { s with cfgLen := s.operands.word, result := {}, pending := s.pending.tail }
      else s.ended { status := .operand }) ∧
    exec .setmax s = .next { s with cfgMax := s.operands.word, result := {}, pending := s.pending.tail } ∧
    (∀ t, exec .setstaff s = .next t → t.result.status = .ok →
      t.esc.toNat = s.operands.word.toNat % 256 ∧ t.staffEn = s.operands.word.toNat.testBit 8 ∧
        t.rule = if s.operands.word.toNat.testBit 8 then some ⟨t.esc, s.operands.pat⟩ else none) ∧
    (∀ t, exec .setcrc s = .next t → t.result.status = .ok →
      t.alg = s.operands.word.toNat % 4 ∧ t.cord = (if s.operands.word.toNat.testBit 2 then .le else .be) ∧
        t.crcStaffed = s.operands.word.toNat.testBit 3) ∧
    (∀ t, exec .setlen s = .next t → t.result.status = .ok →
      t.lenWidth = s.operands.word.toNat % 16 ∧ t.lenStaffed = s.operands.word.toNat.testBit 4 ∧
        t.lenCountsWire = s.operands.word.toNat.testBit 5 ∧
        t.lord = if s.operands.word.toNat.testBit 6 then .le else .be) ∧
    (∀ t, exec .setmax s = .next t → t.maxFrame = s.operands.word.toNat)

/-- R805, R806, R807: SETFMT, SETCRCLIST and SETLENLIST write the token list of their action, and nothing else. -/
def Obligations.SetListCommandsWriteLists : Prop :=
  ∀ (s : State) (a : Action), s.faulted = false → s.committed = false →
    (∃ t, exec (.setfmt a) s = .next t ∧
      t = { s with fmt := t.fmt, result := {}, pending := s.pending.tail } ∧
      ∀ b, t.fmt.get b = if b = a then s.operands.tokens else s.fmt.get b) ∧
    (∃ t, exec (.setcrclist a) s = .next t ∧
      t = { s with crcList := t.crcList, result := {}, pending := s.pending.tail } ∧
      ∀ b, t.crcList.get b = if b = a then s.operands.tokens else s.crcList.get b) ∧
    (∃ t, exec (.setlenlist a) s = .next t ∧
      t = { s with lenList := t.lenList, result := {}, pending := s.pending.tail } ∧
      ∀ b, t.lenList.get b = if b = a then s.operands.tokens else s.lenList.get b)

/-! ### The typed value codec -/

/-- R200, R105: TYPE answers the code of the one kind whose fields are present, exact before range; EMPTY for none; and
E_VALUE_MULTIKIND for two. -/
def Obligations.TypeResolvesByPresence : Prop :=
  ∀ s : State, s.faulted = false →
    exec .type s = .next (s.ended (match codesPresent s.operands.record with
      | [] => { kind := some 0x00 }
      | [c] => { kind := some c }
      | _ => { status := .valueMultikind }))

/-- R210: LENBIT is 8 times the length of WRITE's bytes, but 1 for a boolean; a range has its scalar's width; EMPTY,
TIME and ERR have 0; malformed BYTES text raises E_HEX. -/
def Obligations.LenbitMatchesWrittenLength : Prop :=
  ∀ s : State, s.faulted = false →
    (∀ ord bs, writeValue ord s.operands.val = .ok bs →
      exec .lenbit s = .next (s.ended { n := some (match s.operands.val with
        | .bool _ => 1
        | _ => 8 * bs.length) })) ∧
    (∀ k lo hi ord bs, s.operands.val = .rngInt k lo hi → writeValue ord (.int k 0) = .ok bs →
      exec .lenbit s = .next (s.ended { n := some (8 * bs.length) })) ∧
    (∀ k lo hi ord bs, s.operands.val = .rngFlt k lo hi → writeValue ord (.flt k 0) = .ok bs →
      exec .lenbit s = .next (s.ended { n := some (8 * bs.length) })) ∧
    (s.operands.val = .empty → exec .lenbit s = .next (s.ended { n := some 0 })) ∧
    (∀ t, s.operands.val = .time t → exec .lenbit s = .next (s.ended { n := some 0 })) ∧
    (∀ t, s.operands.val = .err t → exec .lenbit s = .next (s.ended { n := some 0 })) ∧
    (∀ t e, s.operands.val = .bytes t → hexDec t = .error e → exec .lenbit s = .next (s.ended { status := .hex }))

/-- R220, R221, R10: WRITE's bytes of a value in range have its width and read back, in the same order, as that value;
a boolean is 01 or 00, a string its bytes, raw bytes their decoded text. -/
def Obligations.WriteReadsBack : Prop :=
  ∀ (s : State) (ord : Order), s.faulted = false →
    (∀ k x, s.operands.val = .int k x → k.inRange x = true →
      ∃ bs, exec (.write ord) s = .next (s.ended { bytes := some bs }) ∧ 8 * bs.length = k.width ∧
        (if k.signed then sintOf ord bs else (uintOf ord bs : Int)) = x) ∧
    (∀ k b, s.operands.val = .flt k b → k.inRange b = true →
      ∃ bs, exec (.write ord) s = .next (s.ended { bytes := some bs }) ∧ 8 * bs.length = k.width ∧
        uintOf ord bs = b) ∧
    (∀ b, s.operands.val = .bool b →
      exec (.write ord) s = .next (s.ended { bytes := some [if b then 0x01 else 0x00] })) ∧
    (∀ t, s.operands.val = .str t → exec (.write ord) s = .next (s.ended { bytes := some t })) ∧
    (∀ t bs, s.operands.val = .bytes t → hexDec t = .ok bs →
      exec (.write ord) s = .next (s.ended { bytes := some bs }))

/-- R220, R906: WRITE of EMPTY raises E_WRITE_EMPTY, of a value with no byte form E_WRITE_NOFORM, of malformed BYTES
text E_HEX; none of them is sticky. -/
def Obligations.WriteRefusalsAreNotSticky : Prop :=
  ∀ (s : State) (ord : Order), s.faulted = false →
    (s.operands.val = .empty → exec (.write ord) s = .next (s.ended { status := .writeEmpty })) ∧
    (∀ k lo hi, s.operands.val = .rngInt k lo hi →
      exec (.write ord) s = .next (s.ended { status := .writeNoform })) ∧
    (∀ k lo hi, s.operands.val = .rngFlt k lo hi →
      exec (.write ord) s = .next (s.ended { status := .writeNoform })) ∧
    (∀ t, s.operands.val = .time t → exec (.write ord) s = .next (s.ended { status := .writeNoform })) ∧
    (∀ t, s.operands.val = .err t → exec (.write ord) s = .next (s.ended { status := .writeNoform })) ∧
    (∀ t e, s.operands.val = .bytes t → hexDec t = .error e →
      exec (.write ord) s = .next (s.ended { status := .hex }))

/-- R241, first law, R235, R240, R270: CHECK of a value's own WRITE bytes at cursor 0 passes and gives the payload back,
unless it is a NaN, in the 8-bit grid and, in the 16-bit grid, for LE or a width of at least 16. There, CHECK of an
exact value at the bytes of another one of its kind and width, wherever they stand, gets the other one's payload and
passes exactly when the two payloads match; and CHECK of a boolean passes exactly when the bit at the cursor is it. The
report names the kind and expects the value. -/
def Obligations.CheckPassesOnWrittenBytes : Prop :=
  (∀ (s : State) (ord : Order) (grid : Grid) (bs : Buffer) (w : Nat), s.faulted = false →
    s.operands.val.wf = true → writeValue ord s.operands.val = .ok bs → lenBit s.operands.val = .ok w →
    s.operands.buf = bs → s.operands.cur = 0 → Unmirrored grid ord w →
    (∀ k b, s.operands.val = .flt k b → ¬ NanPattern k b) →
    ∃ rep, exec (.check ord grid) s = .next (s.ended { cur := some w, report := some rep }) ∧
      rep.pass = true ∧ rep.got = some (payload s.operands.val bs)) ∧
  (∀ (s : State) (ord : Order) (grid : Grid) (u v : Value) (us vs pre rest : Buffer) (w : Nat), s.faulted = false →
    s.operands.val = u → u.wf = true → v.wf = true → sourceKey u = sourceKey v → writeValue ord u = .ok us →
    writeValue ord v = .ok vs → lenBit u = .ok w → lenBit v = .ok w → 8 ≤ w → Unmirrored grid ord w →
    s.operands.buf = pre ++ vs ++ rest → RoundsTo s.operands.cur w (8 * pre.length) →
    ∃ rep, exec (.check ord grid) s = .next (s.ended { cur := some (8 * pre.length + w), report := some rep }) ∧
      rep.got = some (payload v vs) ∧ rep.typeName = sourceKey u ∧
      (rep.pass = true ↔ match u, v with
        | .flt k b, .flt _ g => ieeeEq k g b = true
        | _, _ => payload u us = payload v vs) ∧
      ((∀ t, u ≠ .bytes t) → rep.expected = .exactly (payload u us))) ∧
  (∀ (s : State) (ord : Order) (grid : Grid) (b : Bool), s.faulted = false → s.operands.val = .bool b →
    grid = .g8 ∨ ord = .le → s.operands.cur < 8 * s.operands.buf.length →
    ∃ rep, exec (.check ord grid) s = .next (s.ended { cur := some (s.operands.cur + 1), report := some rep }) ∧
      rep.got = some (.bit ((s.operands.buf.getD (s.operands.cur / 8) 0).getLsbD (s.operands.cur % 8))) ∧
      (rep.pass = true ↔ (s.operands.buf.getD (s.operands.cur / 8) 0).getLsbD (s.operands.cur % 8) = b) ∧
      rep.typeName = "bool" ∧ rep.expected = .exactly (.bit b))

/-- R230, R241, second law: a CHECK of a field of width w > 0 that ends with OK returns the least multiple of w not below
the cursor, plus w; that is cursor plus w exactly when the cursor is a multiple of w. -/
def Obligations.CheckAdvancesRoundedCursor : Prop :=
  ∀ (s t : State) (ord : Order) (grid : Grid) (w : Nat), lenBit s.operands.val = .ok w → 0 < w →
    exec (.check ord grid) s = .next t → t.result.status = .ok →
    ∃ c, w ∣ c ∧ s.operands.cur ≤ c ∧ c < s.operands.cur + w ∧ t.result.cur = some (c + w) ∧
      (c + w = s.operands.cur + w ↔ w ∣ s.operands.cur)

/-- R241, third law, R231: CHECK reads only the bytes [start, end) of its placement: two buffers of one length that agree
there give the same result record. -/
def Obligations.CheckReadsOnlyItsBytes : Prop :=
  ∀ (s : State) (ord : Order) (grid : Grid) (o : Operands) (buf : Buffer) (w : Nat), lenBit o.val = .ok w → 0 < w →
    buf.length = o.buf.length →
    (∀ j, (place w o.cur (gridBits grid) ord).start ≤ j → j < (place w o.cur (gridBits grid) ord).stop →
      buf[j]? = o.buf[j]?) →
    ∃ t t', exec (.check ord grid) (s.issue (.check ord grid) o) = .next t ∧
      exec (.check ord grid) (s.issue (.check ord grid) { o with buf := buf }) = .next t' ∧ t.result = t'.result

/-- R231, R234: in a 16-bit grid a BE 8-bit field, of whatever kind, whose rounded cursor is the j-th byte reads the other
byte of its register and a LE one its own byte; a BE boolean reads its bit of the other byte and a LE one of its own. A
field at least as wide as the grid, so every one of whole bytes in the 8-bit grid, reads its bytes from its rounded
cursor on. CHECK passes exactly when what it read meets the value, and the report names and expects the value (R240,
R270). -/
def Obligations.CheckMirrorsSubWordFields : Prop :=
  ∀ (s : State) (v : Value), s.faulted = false → s.operands.val = v →
    (∀ ord j p, lenBit v = .ok 8 → RoundsTo s.operands.cur 8 (8 * j) → j < s.operands.buf.length →
      p = (if ord = .be then otherByte j else j) → p < s.operands.buf.length →
      ∃ rep, exec (.check ord .g16) s = .next (s.ended { cur := some (8 * j + 8), report := some rep }) ∧
        Describes rep v ∧ rep.got = some (readAs ord [s.operands.buf.getD p 0] v) ∧
        (rep.pass = true ↔ Meets v (readAs ord [s.operands.buf.getD p 0] v))) ∧
    (∀ ord b j i p, v = .bool b → i < 8 → s.operands.cur = 8 * j + i → j < s.operands.buf.length →
      p = (if ord = .be then otherByte j else j) → p < s.operands.buf.length →
      ∃ rep, exec (.check ord .g16) s = .next (s.ended { cur := some (8 * j + i + 1), report := some rep }) ∧
        Describes rep v ∧ rep.got = some (.bit ((s.operands.buf.getD p 0).getLsbD i)) ∧
        (rep.pass = true ↔ (s.operands.buf.getD p 0).getLsbD i = b)) ∧
    (∀ ord grid w c, lenBit v = .ok w → gridBits grid ≤ w → RoundsTo s.operands.cur w c →
      c + w ≤ 8 * s.operands.buf.length →
      ∃ rep, exec (.check ord grid) s = .next (s.ended { cur := some (c + w), report := some rep }) ∧
        Describes rep v ∧ rep.got = some (readAs ord ((s.operands.buf.drop (c / 8)).take (w / 8)) v) ∧
        (rep.pass = true ↔ Meets v (readAs ord ((s.operands.buf.drop (c / 8)).take (w / 8)) v)))

/-- R232, R233: a buffer shorter than the field's end gives pass = false, got = none and the advanced cursor, in a report
that names and expects the value (R240, R270); a buffer long enough whose mirrored placement still lies past it raises
E_CHECK_OOB: so a BE byte or bit in a 16-bit grid whose register's other byte is not there. -/
def Obligations.CheckNeverReadsPastTheBuffer : Prop :=
  ∀ (s : State) (ord : Order) (grid : Grid) (w c : Nat), s.faulted = false → lenBit s.operands.val = .ok w → 0 < w →
    w ∣ c → s.operands.cur ≤ c → c < s.operands.cur + w →
    (8 * s.operands.buf.length < c + w →
      ∃ rep, exec (.check ord grid) s = .next (s.ended { cur := some (c + w), report := some rep }) ∧
        Describes rep s.operands.val ∧ rep.pass = false ∧ rep.got = none) ∧
    (c + w ≤ 8 * s.operands.buf.length →
      s.operands.buf.length < (place w s.operands.cur (gridBits grid) ord).stop →
      exec (.check ord grid) s = .next (s.ended { status := .checkOob })) ∧
    (c + w ≤ 8 * s.operands.buf.length → w ≤ 8 → s.operands.buf.length ≤ otherByte (c / 8) →
      exec (.check .be .g16) s = .next (s.ended { status := .checkOob }))

/-- R237, R238, R239: CHECK of TIME, ERR and EMPTY leaves the cursor, reads no byte of the buffer, and compares the
elapsed time with the parsed threshold, the error text verbatim, or answers the parameter EMPTY_CHECK_PASS. R229: the
empty string, and BYTES that decode to nothing, pass at any cursor of any buffer, which they leave and do not read. R228:
BYTES with malformed text raise E_HEX. R270: each report names its kind. -/
def Obligations.CheckOfUnreadVariants : Prop :=
  ∀ (s : State) (ord : Order) (grid : Grid), s.faulted = false →
    (∀ t, s.operands.val = .time t →
      ∃ rep, exec (.check ord grid) s = .next (s.ended { cur := some s.operands.cur, report := some rep }) ∧
        (rep.pass = true ↔ s.operands.elapsed.toInt ≤ durParse t) ∧
        rep.got = some (.int s.operands.elapsed.toInt) ∧ rep.typeName = "time") ∧
    (∀ t, s.operands.val = .err t →
      ∃ rep, exec (.check ord grid) s = .next (s.ended { cur := some s.operands.cur, report := some rep }) ∧
        (rep.pass = true ↔ s.operands.errtext = t) ∧ rep.got = some (.buf s.operands.errtext) ∧
        rep.typeName = "error") ∧
    (s.operands.val = .empty →
      ∃ rep, exec (.check ord grid) s = .next (s.ended { cur := some s.operands.cur, report := some rep }) ∧
        rep.pass = Config.emptyCheckPass ∧ rep.got = none ∧ rep.typeName = "") ∧
    (s.operands.val = .str [] ∨ (∃ t, s.operands.val = .bytes t ∧ hexDec t = .ok []) →
      ∃ rep, exec (.check ord grid) s = .next (s.ended { cur := some s.operands.cur, report := some rep }) ∧
        rep.pass = true ∧ rep.got = some (.buf []) ∧ Describes rep s.operands.val) ∧
    (∀ t e, s.operands.val = .bytes t → hexDec t = .error e →
      exec (.check ord grid) s = .next (s.ended { status := .hex }))

/-- R236, R240, R270: CHECK of a range against the bytes of a scalar x in its kind's range, wherever they stand, gets x
and passes exactly when x is not below a present minimum nor above a present maximum: as integers, and for floats by
IEEE 754's order (FloatComparisonIsSignMagnitude). The report names the scalar's kind and expects the range. -/
def Obligations.CheckRangeIsInclusive : Prop :=
  ∀ (s : State) (ord : Order) (grid : Grid) (pre rest : Buffer), s.faulted = false →
    (∀ k lo hi x, s.operands.val = .rngInt k lo hi → k.inRange x = true → Unmirrored grid ord k.width →
      s.operands.buf = pre ++ bytesOf ord (k.width / 8) x ++ rest → RoundsTo s.operands.cur k.width (8 * pre.length) →
      ∃ rep, exec (.check ord grid) s =
          .next (s.ended { cur := some (8 * pre.length + k.width), report := some rep }) ∧
        rep.got = some (.int x) ∧ (rep.pass = true ↔ (∀ m ∈ lo, m ≤ x) ∧ (∀ m ∈ hi, x ≤ m)) ∧
        rep.typeName = intKey k ∧ rep.expected = .range (lo.map .int) (hi.map .int)) ∧
    (∀ k lo hi x, s.operands.val = .rngFlt k lo hi → k.inRange x = true →
      s.operands.buf = pre ++ bytesOf ord (k.width / 8) x ++ rest → RoundsTo s.operands.cur k.width (8 * pre.length) →
      ∃ rep, exec (.check ord grid) s =
          .next (s.ended { cur := some (8 * pre.length + k.width), report := some rep }) ∧
        rep.got = some (.flt x) ∧
        (rep.pass = true ↔ (∀ m ∈ lo, ieeeLe k m x = true) ∧ (∀ m ∈ hi, ieeeLe k x m = true)) ∧
        rep.typeName = fltKey k ∧ rep.expected = .range (lo.map .flt) (hi.map .flt))

/-- R235, R236: the comparison of float patterns is IEEE 754's: false on a NaN; otherwise equality of patterns but for
+0 and -0, and the order of sign and magnitude. -/
def Obligations.FloatComparisonIsSignMagnitude : Prop :=
  ∀ (k : FltKind) (a b : Nat), k.inRange a = true → k.inRange b = true →
    (NanPattern k a ∨ NanPattern k b → ieeeEq k a b = false ∧ ieeeLe k a b = false) ∧
    (¬ NanPattern k a → ¬ NanPattern k b →
      (ieeeEq k a b = true ↔ a = b ∨ (a % 2 ^ (k.width - 1) = 0 ∧ b % 2 ^ (k.width - 1) = 0)) ∧
      (ieeeLe k a b = true ↔ SignMagnitudeLe k a b))

/-- R250: HEXDEC of hex digits, in capitals or not, with any number of "0x" and spaces before, between and behind them, so
inside a pair too, gives the bytes of their pairs and ignores a last digit alone; of a buffer written as "0xHH 0xHH " it
gives the buffer. Behind an even number of digits, one more character, whatever it is, changes nothing; and a pair of
which one character or both are no hex digits raises E_HEX, whatever follows. Each character must be one that the steps
of R250 leave to be paired: no space, and no "0" or "x" of an "0x". -/
def Obligations.HexdecReadsHexLiterals : Prop :=
  ∀ s : State, s.faulted = false →
    (∀ ds, HexText ds s.operands.text → exec .hexdec s = .next (s.ended { bytes := some (pairedBytes ds) })) ∧
    (∀ capital bs, s.operands.text = hexLiteral capital bs → exec .hexdec s = .next (s.ended { bytes := some bs })) ∧
    (∀ ds pre post c, HexText ds pre → ds.length % 2 = 0 → HexText [] post → s.operands.text = pre ++ [c] ++ post →
      ¬ (pre.getLast? = some 0x30 ∧ IsX c) →
      exec .hexdec s = .next (s.ended { bytes := some (pairedBytes ds) })) ∧
    (∀ ds pre mid rest p q, HexText ds pre → ds.length % 2 = 0 → HexText [] mid →
      s.operands.text = pre ++ [p] ++ mid ++ [q] ++ rest → ¬ (HexChar p ∧ HexChar q) → p ≠ 0x20 → q ≠ 0x20 →
      ¬ (pre.getLast? = some 0x30 ∧ IsX p) → ¬ (p = 0x30 ∧ mid = [] ∧ IsX q) →
      ¬ (q = 0x30 ∧ ∃ x ∈ rest.head?, IsX x) →
      exec .hexdec s = .next (s.ended { status := .hex }))

/-- R260: DURPARSE of digits, with or without a fraction, before a unit gives the exact product truncated to
nanoseconds; digits alone are seconds; the empty text and a bare unit are 0; every other text gives -1; overflow gives
-1. -/
def Obligations.DurparseReadsDurations : Prop :=
  ∀ s : State, s.faulted = false →
    (∀ ds fs u v, ds ≠ [] → u ∈ durationUnits →
      s.operands.text = asciiDigits ds ++ [0x2E] ++ asciiDigits fs ++ u.1 →
      v * 10 ^ fs.length ≤ digitsValue (ds ++ fs) * u.2 → digitsValue (ds ++ fs) * u.2 < (v + 1) * 10 ^ fs.length →
      exec .durparse s = .next (s.ended { dur := some (durationResult v) })) ∧
    (∀ ds u, ds ≠ [] → u ∈ durationUnits → s.operands.text = asciiDigits ds ++ u.1 →
      exec .durparse s = .next (s.ended { dur := some (durationResult (digitsValue ds * u.2)) })) ∧
    (∀ ds, ds ≠ [] → s.operands.text = asciiDigits ds →
      exec .durparse s = .next (s.ended { dur := some (durationResult (digitsValue ds * 10 ^ 9)) })) ∧
    (∀ u ∈ durationUnits, s.operands.text = u.1 → exec .durparse s = .next (s.ended { dur := some 0 })) ∧
    (s.operands.text = [] → exec .durparse s = .next (s.ended { dur := some 0 })) ∧
    (¬ DurationText s.operands.text → exec .durparse s = .next (s.ended { dur := some (-1) }))

/-! ### Aggregate packing -/

/-- R330, first two laws, R300, R301: for a list of values that WRITE can write, PACK8's length is COUNTBIT.G8's bits in
whole bytes, and PACK16's is twice COUNTBIT.G16's registers. COUNTBIT counts a range as its scalar, and EMPTY, TIME and
ERR as a string of no bytes. In the 8-bit grid a value with bytes is counted from a whole byte, and the booleans behind
it one each. Malformed BYTES text raises E_HEX. -/
def Obligations.PackedLengthsAgreeWithCount : Prop :=
  (∀ (s : State) (ord : Order), s.faulted = false → (∀ v ∈ s.operands.vals, ∃ bs, writeValue ord v = .ok bs) →
    ∃ n8 n16 b8 b16,
      exec (.countbit .g8) s = .next (s.ended { n := some n8 }) ∧
      exec (.countbit .g16) s = .next (s.ended { n := some n16 }) ∧
      exec (.pack8 ord) s = .next (s.ended { bytes := some b8 }) ∧
      exec (.pack16 ord) s = .next (s.ended { bytes := some b16 }) ∧
      n8 ≤ 8 * b8.length ∧ 8 * b8.length < n8 + 8 ∧ b16.length = 2 * n16) ∧
  (∀ (s : State) (grid : Grid) (vals : List Value), s.faulted = false →
    ∃ r, s.Answers (.countbit grid) { vals := vals } r ∧
      s.Answers (.countbit grid) { vals := vals.map countedAs } r ∧
      ((∃ t e, .bytes t ∈ vals ∧ hexDec t = .error e) → r = { status := .hex })) ∧
  (∀ (s : State) (front : List Value) (v : Value) (bools : List Bool) (n w : Nat), s.faulted = false →
    (s.Answers (.countbit .g8) { vals := bools.map .bool } { n := some bools.length }) ∧
    (s.Answers (.countbit .g8) { vals := front } { n := some n } → lenBit v = .ok w → 8 ≤ w →
      ∃ c, RoundsTo n 8 c ∧ s.Answers (.countbit .g8) { vals := front ++ [v] ++ bools.map .bool }
        { n := some (c + w + bools.length) }))

/-- R310, R320, R84, R330's third law: PACK8 of booleans alone puts the i-th in bit i mod 8 of byte i div 8, and zeros
above the last. A value with bytes stands, as WRITE gives it, behind the packed values before it, and booleans behind it
open a new byte. PACK16 puts a value of two or more bytes on an even offset, and the values of at most one byte behind
it as PACK8 would; it ends on an even length; its pads are 0x00. A value of no bytes emits nothing, and the first value
WRITE refuses ends the command with WRITE's status. -/
def Obligations.PackersEmitWrittenBytesInOrder : Prop :=
  ∀ (s : State) (ord : Order), s.faulted = false →
    (∀ bs : List Bool, s.operands.vals = bs.map .bool →
      ∃ out, exec (.pack8 ord) s = .next (s.ended { bytes := some out }) ∧
        bs.length ≤ 8 * out.length ∧ 8 * out.length < bs.length + 8 ∧
        ∀ i, (out.getD (i / 8) 0).getLsbD (i % 8) = bs.getD i false) ∧
    (∀ (front : List Value) (v : Value) (bools : List Bool) (f w q : Buffer), (∀ b, v ≠ .bool b) →
      writeValue ord v = .ok w → w ≠ [] →
      s.Answers (.pack8 ord) { vals := front } { bytes := some f } →
      s.Answers (.pack8 ord) { vals := bools.map .bool } { bytes := some q } →
      s.Answers (.pack8 ord) { vals := front ++ [v] ++ bools.map .bool } { bytes := some (f ++ w ++ q) }) ∧
    (∀ (front narrow : List Value) (v : Value) (f w q : Buffer), (∀ b, v ≠ .bool b) →
      writeValue ord v = .ok w → 2 ≤ w.length →
      (∀ x ∈ narrow, ∃ bs, writeValue ord x = .ok bs ∧ bs.length ≤ 1) →
      s.Answers (.pack8 ord) { vals := narrow } { bytes := some q } →
      s.Answers (.pack16 ord) { vals := narrow } { bytes := some (evened q) } ∧
      (s.Answers (.pack16 ord) { vals := front } { bytes := some f } →
        s.Answers (.pack16 ord) { vals := front ++ [v] ++ narrow } { bytes := some (evened (f ++ w ++ q)) })) ∧
    (∀ (front back : List Value) (v : Value) (r : Result) (i : Instr), i = .pack8 ord ∨ i = .pack16 ord →
      writeValue ord v = .ok [] →
      s.Answers i { vals := front ++ back } r → s.Answers i { vals := front ++ [v] ++ back } r) ∧
    (∀ (front back : List Value) (v : Value) (c : Status) (i : Instr), i = .pack8 ord ∨ i = .pack16 ord →
      (∀ x ∈ front, ∃ bs, writeValue ord x = .ok bs) →
      writeValue ord v = .error c → s.Answers i { vals := front ++ [v] ++ back } { status := c })

/-! ### The frame template compiler -/

/-- R400, R410: COMMIT of one start/end format: constants, then `data#` and `crc#` each at most once, then constants.
It locks with the start and end constants concatenated. -/
def Obligations.CommitCompilesStartEndFormat : Prop :=
  ∀ (s : State) (a : Action) (ks es : List (Fin Config.constSlots)) (ms : List Byte),
    s.faulted = false → s.committed = false → s.staffEn = false → s.alg < 2 → 0 < s.maxFrame →
    s.fmt = onlyFor a (constCodes ks ++ ms ++ constCodes es) → s.lenList = ⟨[], [], []⟩ → s.crcList = ⟨[], [], []⟩ →
    ms ≠ [] → ms.Nodup → (∀ m ∈ ms, m = dataCode ∨ m = crcCode) → Declared s ks → Declared s es →
    constConcat s ks ≠ [] → constConcat s es ≠ [] →
    ∃ t, exec .commit s = .next t ∧ t.committed = true ∧ t.faulted = false ∧ t.fcode = s.fcode ∧
      t = { s with
        template := PerAction.set ⟨none, none, none⟩ a (some ⟨constConcat s ks, 0, [], constConcat s es, false⟩),
        ctrl := t.ctrl, result := {}, pending := s.pending.tail }

/-- R400, R410: COMMIT of one length-driven format: constants, `len#`, a covered `data#`, then suffix tokens. The suffix
is kept in order, the end constant stays empty, and the length offset is the start constant's length. -/
def Obligations.CommitCompilesLengthDrivenFormat : Prop :=
  ∀ (s : State) (a : Action) (ks : List (Fin Config.constSlots)) (suf : List SuffixToken),
    s.faulted = false → s.committed = false → s.staffEn = false → s.alg < 2 → 0 < s.maxFrame →
    (s.lenWidth = 1 ∨ s.lenWidth = 2 ∨ s.lenWidth = 4 ∨ s.lenWidth = 8) →
    s.fmt = onlyFor a (constCodes ks ++ [lenCode, dataCode] ++ suf.map suffixCode) → s.lenList = onlyFor a [dataCode] →
    s.crcList = ⟨[], [], []⟩ → SuffixToken.data ∉ suf → suf.count .crc ≤ 1 → Declared s ks →
    (∀ k, SuffixToken.const k ∈ suf → s.consts[k].valid = true) → constConcat s ks ≠ [] →
    ∃ t, exec .commit s = .next t ∧ t.committed = true ∧ t.faulted = false ∧ t.fcode = s.fcode ∧
      t = { s with
        template := PerAction.set ⟨none, none, none⟩ a
          (some ⟨constConcat s ks, (constConcat s ks).length, suf, [], true⟩),
        ctrl := t.ctrl, result := {}, pending := s.pending.tail }

/-- R400, R410, R420, R430, R902: COMMIT reports the first error of the configuration, in the order of R430, with one of
the 13 fatal statuses, and writes no template; with no error it locks, with the template of each action that has a
format: its start and end constants, the length's offset and the uncovered tokens behind `len#`. In particular a `len#`
after another marker in FMT[R], or a second one, raises E_CFG_MARKER_ORDER. R811, R952: a host that loads a configuration
and has only COMMIT left stops after the error with the code it reads with STATUS, and is done after the lock; that the
loading is steps of the model's host is the model's choice (assumption log 14). -/
def Obligations.CommitReportsTheFirstError : Prop :=
  ∀ s : State, s.faulted = false → s.committed = false →
    (∀ c, commitFault s = some c →
      ∃ t, exec .commit s = .next t ∧ t.faulted = true ∧ t.fcode = c.code ∧ t.committed = false ∧
        t = { s with ctrl := t.ctrl, result := { status := c }, pending := s.pending.tail }) ∧
    (commitFault s = none →
      ∃ t, exec .commit s = .next t ∧ t.committed = true ∧ t.faulted = false ∧ t.fcode = s.fcode ∧
        t = { s with
          template := ⟨templateOf s .r, templateOf s .w, templateOf s .e⟩,
          ctrl := t.ctrl, result := {}, pending := s.pending.tail }) ∧
    (∀ (ks mid post : List (Fin Config.constSlots)) (m : Byte),
      s.fmt = onlyFor .r (constCodes ks ++ [m] ++ constCodes mid ++ [lenCode] ++ constCodes post) →
      s.lenList = ⟨[], [], []⟩ → s.crcList = ⟨[], [], []⟩ → m = lenCode ∨ m = dataCode ∨ m = crcCode →
      Declared s ks → Declared s mid → Declared s post →
      ∃ t, exec .commit s = .next t ∧ t.faulted = true ∧ t.fcode = 0x21 ∧ t.committed = false ∧
        t = { s with ctrl := t.ctrl, result := { status := .cfgMarkerOrder }, pending := s.pending.tail }) ∧
    (s.pending = [] → s.loop.phase = .boot [{ word := encode .commit }] →
      (∀ c, commitFault s = some c →
        ∃ t, Sys2Proof.core.run 6 s = .next t ∧ t.faulted = true ∧ t.fcode = c.code ∧ t.committed = false ∧
          t = { s with
            ctrl := t.ctrl, result := { stat := some t.statusWord },
            loop := { s.loop with phase := .stopped (.badConfig c.code) } }) ∧
      (commitFault s = none →
        ∃ t, Sys2Proof.core.run 4 s = .next t ∧ t.committed = true ∧ t.faulted = false ∧ t.fcode = s.fcode ∧
          t = { s with
            template := ⟨templateOf s .r, templateOf s .w, templateOf s .e⟩,
            ctrl := t.ctrl, result := {}, loop := { s.loop with phase := .idle } }))

/-- R400, R420 steps 2 and 5, R600: with every list empty, COMMIT raises E_CFG_ALG for ALG 2 or 3, else E_CFG_STAFF for
a rule whose ESC is in P together with another byte, else locks with no template. -/
def Obligations.CommitWithoutFormats : Prop :=
  ∀ s : State, s.faulted = false → s.committed = false → s.fmt = ⟨[], [], []⟩ → s.lenList = ⟨[], [], []⟩ →
    s.crcList = ⟨[], [], []⟩ →
    ∃ t, exec .commit s = .next t ∧
      (if 2 ≤ s.alg then
        t.faulted = true ∧ t.fcode = 0x25 ∧ t.committed = false ∧
          t = { s with ctrl := t.ctrl, result := { status := .cfgAlg }, pending := s.pending.tail }
      else if s.staffEn = true ∧ s.cfgPat.getLsbD s.esc.toNat = true ∧
          (∃ b : Byte, b ≠ s.esc ∧ s.cfgPat.getLsbD b.toNat = true) then
        t.faulted = true ∧ t.fcode = 0x27 ∧ t.committed = false ∧
          t = { s with ctrl := t.ctrl, result := { status := .cfgStaff }, pending := s.pending.tail }
      else
        t.committed = true ∧ t.faulted = false ∧ t.fcode = s.fcode ∧
          t = { s with template := ⟨none, none, none⟩, ctrl := t.ctrl, result := {}, pending := s.pending.tail })

/-! ### The frame delimiter -/

/-- R500, R51: both splitters, when the start constant is not at index 0: an empty buffer gives NEED or EXHAUSTED; no
start constant discards all but a tail of its length, or everything at end of stream; one first found at i > 0 discards
the i bytes before it. -/
def Obligations.SplittersFindTheStart : Prop :=
  ∀ (s : State) (eos : Bool) (a : Action) (t : Template), s.faulted = false → s.committed = true →
    s.template.get a = some t → t.start ≠ [] →
    (s.operands.buf = [] → exec (splitOf t eos a) s =
      .next (s.ended { adv := some 0, frame := some none, isFinal := some eos })) ∧
    (s.operands.buf ≠ [] → (∀ j, ¬ t.start <+: s.operands.buf.drop j) → exec (splitOf t eos a) s =
      .next (s.ended { adv := some (if eos then s.operands.buf.length else s.operands.buf.length - t.start.length),
                       frame := some none, isFinal := some false })) ∧
    (∀ i, 0 < i → t.start <+: s.operands.buf.drop i → (∀ j, j < i → ¬ t.start <+: s.operands.buf.drop j) →
      exec (splitOf t eos a) s = .next (s.ended { adv := some i, frame := some none, isFinal := some false }))

/-- R510: SPLITSE, the start constant at index 0, cuts a frame after the first end constant that lies behind it and
within M; with none, it discards one byte once M bytes are there, fails at end of stream, and asks for more otherwise. -/
def Obligations.SplitseCutsAtTheEndConstant : Prop :=
  ∀ (s : State) (eos : Bool) (a : Action) (t : Template) (buf : Buffer), s.faulted = false → s.committed = true →
    s.template.get a = some t → t.lenDriven = false → t.start ≠ [] → t.start <+: buf → s.operands.buf = buf →
    (∀ n, EndsAt t buf n → n ≤ s.maxFrame → (∀ m, m < n → ¬ EndsAt t buf m) →
      exec (.splitse eos a) s = .next (s.ended
        { adv := some n, frame := some (some (buf.take n)), isFinal := some (eos && n = buf.length) })) ∧
    ((∀ n, n ≤ s.maxFrame → ¬ EndsAt t buf n) →
      exec (.splitse eos a) s = .next (s.ended (
        if s.maxFrame ≤ buf.length then { adv := some 1, frame := some none, isFinal := some false }
        else if eos then { status := .eosIncomplete }
        else { adv := some 0, frame := some none, isFinal := some false })))

/-- R520, R521, without a staffing rule: SPLITLEN's frame is the start constant, the length field, as many bytes as it
says, and the suffix. One that lies in the buffer and within M is cut; one past M is dropped with its start constant;
one within M that is not all there needs more bytes, or fails at end of stream. The parts are required one after the
other: the first one that the buffer or M does not hold whole decides, the length field, the bytes it covers, or a
suffix token, so that a length past M drops the start constant whatever the buffer holds. R605, R606, R607, with or
without a rule: staffed parts are measured unit by unit, and `frameEnd` says where every frame ends, or what SPLITLEN ends
with when a byte is past M or missing, and where it looks for an ESC behind a part's last pattern byte. -/
def Obligations.SplitlenMeasuresTheFrame : Prop :=
  (∀ (s : State) (eos : Bool) (a : Action) (t : Template) (lb rest buf : Buffer) (l n : Nat), s.faulted = false →
    s.committed = true → s.template.get a = some t → t.lenDriven = true → t.start ≠ [] → SuffixToken.data ∉ t.suffix →
    s.rule = none → buf = t.start ++ lb ++ rest → s.operands.buf = buf → lb.length = s.lenWidth → lb ≠ [] →
    l = t.start.length + lb.length + uintOf s.lord lb → n = l + (t.suffix.map (suffixLength s)).sum →
    (n ≤ buf.length → n ≤ s.maxFrame →
      exec (.splitlen eos a) s = .next (s.ended
        { adv := some n, frame := some (some (buf.take n)), isFinal := some (eos && n = buf.length) })) ∧
    (n ≤ buf.length → s.maxFrame < n →
      exec (.splitlen eos a) s = .next (s.ended
        { adv := some t.start.length, frame := some none, isFinal := some false })) ∧
    (buf.length < n → n ≤ s.maxFrame →
      exec (.splitlen eos a) s = .next (s.ended (
        if eos then { status := .eosIncomplete }
        else { adv := some 0, frame := some none, isFinal := some false }))) ∧
    (min buf.length s.maxFrame < l → exec (.splitlen eos a) s = .next (s.ended (lacking s t eos l))) ∧
    (∀ done k more m, t.suffix = done ++ [k] ++ more → m = l + (done.map (suffixLength s)).sum →
      m ≤ min buf.length s.maxFrame → min buf.length s.maxFrame < m + suffixLength s k →
      exec (.splitlen eos a) s = .next (s.ended (lacking s t eos (m + suffixLength s k))))) ∧
  (∀ (s : State) (eos : Bool) (a : Action) (t : Template), s.faulted = false → s.committed = true →
    s.template.get a = some t → t.lenDriven = true → t.start ≠ [] → s.rule = none → t.start <+: s.operands.buf →
    s.operands.buf.length < t.start.length + s.lenWidth →
    exec (.splitlen eos a) s = .next (s.ended (lacking s t eos (t.start.length + s.lenWidth)))) ∧
  (∀ (s : State) (eos : Bool) (a : Action) (t : Template), s.faulted = false → s.committed = true →
    s.template.get a = some t → t.lenDriven = true → t.start ≠ [] → SuffixToken.data ∉ t.suffix →
    t.start <+: s.operands.buf →
    exec (.splitlen eos a) s = .next (s.ended (match frameEnd s t eos s.operands.buf with
      | .ok n => { adv := some n, frame := some (some (s.operands.buf.take n)),
                   isFinal := some (eos && n = s.operands.buf.length) }
      | .error r => r)))

/-- R530, progress and framing: a splitter that ends with OK advances by at most the buffer; a frame is the buffer's
first `adv` bytes, not empty, begins with the start constant, is at most M long, and for SPLITSE ends with the end
constant. -/
def Obligations.SplitOutcomesAreFramed : Prop :=
  ∀ (s u : State) (eos : Bool) (a : Action) (i : Instr), s.Consistent → i = .splitse eos a ∨ i = .splitlen eos a →
    exec i s = .next u → u.result.status = .ok →
    ∃ t n f fin, s.template.get a = some t ∧
      u.result = { adv := some n, frame := some f, isFinal := some fin } ∧ n ≤ s.operands.buf.length ∧
      ∀ fr, f = some fr → 1 ≤ n ∧ fr = s.operands.buf.take n ∧ fr.length = n ∧ n ≤ s.maxFrame ∧ t.start <+: fr ∧
        fin = (eos && n = s.operands.buf.length) ∧ (t.lenDriven = false → t.endConst <:+ fr)

/-- R530, no NEED at end of stream: with eos, a splitter that ends with OK advances or signals exhaustion. -/
def Obligations.NoNeedAtEndOfStream : Prop :=
  ∀ (s u : State) (a : Action) (i : Instr), s.Consistent → i = .splitse true a ∨ i = .splitlen true a →
    exec i s = .next u → u.result.status = .ok →
    (∃ n, u.result.adv = some (n + 1)) ∨ (u.result.adv = some 0 ∧ u.result.isFinal = some true)

/-- R530, prefix stability: a frame given without eos is given again, the same, when more bytes follow. -/
def Obligations.FramesAreStableAsBytesArrive : Prop :=
  ∀ (s u : State) (a : Action) (i : Instr) (o : Operands) (x : Buffer) (n : Nat) (f : Buffer),
    i = .splitse false a ∨ i = .splitlen false a →
    exec i (s.issue i o) = .next u → u.result.adv = some n → u.result.frame = some (some f) →
    ∃ u', exec i (s.issue i { o with buf := o.buf ++ x }) = .next u' ∧ u'.result = u.result

/-- R530, build then split, for a start/end template whose constants after the first marker stand after the last: a
built frame within M, in which the end constant does not occur early, splits back whole. -/
def Obligations.BuiltFrameSplitsByEndConstant : Prop :=
  ∀ (s u : State) (eos : Bool) (a : Action) (t : Template) (data f x : Buffer) (ks es : List (Fin Config.constSlots))
    (ms : List Byte),
    s.Consistent → s.faulted = false → s.template.get a = some t → t.lenDriven = false →
    s.fmt.get a = constCodes ks ++ ms ++ constCodes es → ms ≠ [] → (∀ m ∈ ms, m = dataCode ∨ m = crcCode) →
    exec (.build a) (s.issue (.build a) { buf := data }) = .next u → u.result.bytes = some f →
    f.length ≤ s.maxFrame →
    (∀ j, t.start.length ≤ j → j + t.endConst.length < f.length → ¬ t.endConst <+: f.drop j) →
    exec (.splitse eos a) (s.issue (.splitse eos a) { buf := f ++ x }) =
      .next ((s.issue (.splitse eos a) { buf := f ++ x }).ended
        { adv := some f.length, frame := some (some f), isFinal := some (eos && x = []) })

/-- R530, build then split, for a length-driven template whose LENLIST lists exactly the covered tokens. The rule's
preconditions, and one more it does not name: under LC = 0 with a rule present, a covered checksum must be staffed, or
its raw bytes can be mis-measured as R607 says of constants (assumption log 15). -/
def Obligations.BuiltFrameSplitsByLength : Prop :=
  ∀ (s u : State) (eos : Bool) (a : Action) (t : Template) (data f x : Buffer) (pre covered suf : List Byte),
    s.Consistent → s.faulted = false → s.template.get a = some t → t.lenDriven = true →
    s.fmt.get a = pre ++ [lenCode] ++ covered ++ suf → (∀ c ∈ covered, c ∈ s.lenList.get a) →
    (∀ c ∈ suf, c ∉ s.lenList.get a) → List.Perm (s.lenList.get a) covered →
    (s.lenCountsWire = false → ∀ r, s.rule = some r →
      (∀ k, tokenCode (.const k) ∈ covered → ∀ b ∈ s.constBytes k, r.has b = false) ∧
      (crcCode ∈ covered → s.crcStaffed = true)) →
    exec (.build a) (s.issue (.build a) { buf := data }) = .next u → u.result.bytes = some f →
    f.length ≤ s.maxFrame →
    exec (.splitlen eos a) (s.issue (.splitlen eos a) { buf := f ++ x }) =
      .next ((s.issue (.splitlen eos a) { buf := f ++ x }).ended
        { adv := some f.length, frame := some (some f), isFinal := some (eos && x = []) })

/-- R605: a staffed FIELD that completes has read the first n bytes of UNSTUFF of the buffer's tail; and it reads any
staffed bytes back, over their whole wire span. -/
def Obligations.StaffedFieldReadsUnstuffedBytes : Prop :=
  (∀ (c : SplitCtx) (r : StaffRule) (tail out : Buffer) (n pos p : Nat),
    c.staffedField r tail n pos = .ok (out, p) → out = (unstuffBy r tail).take n ∧ out.length = n) ∧
  (∀ (c : SplitCtx) (r : StaffRule) (d rest : Buffer) (pos : Nat), pos + (stuffBy r d).length ≤ c.max →
    c.staffedField r (stuffBy r d ++ rest) d.length pos = .ok (d, pos + (stuffBy r d).length))

/-! ### Byte staffing -/

/-- R46, R601, R602, R604: STUFF puts ESC after every pattern byte, UNSTUFF of that gives the buffer back, and with no
rule both are the identity. UNSTUFF of any buffer drops an ESC right behind a pattern byte and keeps every other byte:
an unescaped or trailing pattern byte, and an ESC that stands elsewhere. -/
def Obligations.StuffThenUnstuffGivesTheBufferBack : Prop :=
  (∀ s : State, s.faulted = false → s.committed = true →
    ∃ wire, wire = s.operands.buf.flatMap (fun b =>
        if s.staffEn && s.cfgPat.getLsbD b.toNat then [b, s.esc] else [b]) ∧
      exec .stuff s = .next (s.ended { bytes := some wire }) ∧
      exec .unstuff (s.issue .unstuff { buf := wire }) =
        .next ((s.issue .unstuff { buf := wire }).ended { bytes := some s.operands.buf })) ∧
  (∀ s : State, s.faulted = false → s.committed = true →
    s.Answers .unstuff {} { bytes := some [] } ∧
    ∀ (b : Byte) (bs : Buffer),
      (s.staffEn = true → s.cfgPat.getLsbD b.toNat = true →
        ∃ u, s.Answers .unstuff { buf := bs } { bytes := some u } ∧
          s.Answers .unstuff { buf := b :: s.esc :: bs } { bytes := some (b :: u) }) ∧
      (¬ (s.staffEn = true ∧ s.cfgPat.getLsbD b.toNat = true ∧ bs.head? = some s.esc) →
        ∃ u, s.Answers .unstuff { buf := bs } { bytes := some u } ∧
          s.Answers .unstuff { buf := b :: bs } { bytes := some (b :: u) }))

/-- R604, converse: STUFF of UNSTUFF gives a buffer back exactly when it is a well-formed staffed one. -/
def Obligations.StuffOfUnstuffIffWellStaffed : Prop :=
  ∀ (r : StaffRule) (x : Buffer), r.admitted = true → (stuffBy r (unstuffBy r x) = x ↔ wellStaffed r x = true)

/-- R603: on an admitted rule, STUFF and UNSTUFF are the source's passes over the whole buffer, one per pattern byte, in
whatever order. -/
def Obligations.StaffingIsThePerPatternPasses : Prop :=
  ∀ (r : StaffRule) (ps : List Byte), r.admitted = true → ps.Nodup → (∀ b, b ∈ ps ↔ r.has b = true) →
    ∀ d : Buffer, stuffBy r d = insertPasses r.esc ps d ∧ unstuffBy r d = removePasses r.esc ps d

/-! ### Checksums and frames -/

/-- R700: MOD256 answers the sum of the bytes modulo 256, as one byte. -/
def Obligations.Mod256IsTheByteSum : Prop :=
  ∀ s : State, s.faulted = false →
    ∃ b : Byte, exec .mod256 s = .next (s.ended { bytes := some [b] }) ∧
      b.toNat = (s.operands.buf.map BitVec.toNat).sum % 256

/-- R710, R711, R45: CRC16 answers the two bytes of the bit-serial Modbus CRC, low byte first for LE, high byte first
for BE. -/
def Obligations.Crc16IsBitSerial : Prop :=
  ∀ s : State, s.faulted = false →
    ∀ lo hi : Byte, crcSerial s.operands.buf = hi ++ lo →
      exec (.crc16 .le) s = .next (s.ended { bytes := some [lo, hi] }) ∧
      exec (.crc16 .be) s = .next (s.ended { bytes := some [hi, lo] })

/-- R710: the CRC of a buffer followed by its own CRC bytes, low byte first, is 0x0000. -/
def Obligations.Crc16ResidueIsZero : Prop :=
  ∀ (s : State) (ord : Order) (b : Buffer), s.faulted = false →
    ∃ c, exec (.crc16 .le) (s.issue (.crc16 .le) { buf := b }) =
        .next ((s.issue (.crc16 .le) { buf := b }).ended { bytes := some c }) ∧
      exec (.crc16 ord) (s.issue (.crc16 ord) { buf := b ++ c }) =
        .next ((s.issue (.crc16 ord) { buf := b ++ c }).ended { bytes := some [0x00, 0x00] })

/-- R720, R721: CHKSUM answers MOD256's byte under ALG = 0 and otherwise CRC16's bytes in CORD order; the length is
CHKLEN. -/
def Obligations.ChksumIsTheConfiguredChecksum : Prop :=
  ∀ s : State, s.faulted = false → s.committed = true →
    ∃ bs, exec .chksum s = .next (s.ended { bytes := some bs }) ∧ bs.length = chkLen s ∧
      exec (if s.alg = 0 then .mod256 else .crc16 s.cord) s = .next (s.ended { bytes := some bs })

/-- R730, R601, R721: CALCLEN answers the sum of what the LENLIST tokens add, or E_LEN_OVERFLOW when it does not fit W
bytes. -/
def Obligations.CalclenSumsTheCoverageList : Prop :=
  ∀ (s : State) (a : Action), s.faulted = false → s.committed = true →
    (∀ c ∈ s.lenList.get a, c = dataCode ∨ c = crcCode ∨ 0x80 ≤ c.toNat) →
    exec (.calclen a) s = .next (s.ended (
      if ((s.lenList.get a).map (lengthOf s a s.operands.buf)).sum < 2 ^ (8 * s.lenWidth) then
        { n := some ((s.lenList.get a).map (lengthOf s a s.operands.buf)).sum }
      else { status := .lenOverflow }))

/-- R740: CALCCRC answers the configured checksum of the CRCLIST tokens' logical bytes, or E_OPERAND when a listed
length value does not fit W bytes. -/
def Obligations.CalccrcCoversTheLogicalBytes : Prop :=
  ∀ (s : State) (a : Action), s.faulted = false → s.committed = true →
    (∀ c ∈ s.crcList.get a, c = lenCode ∨ c = dataCode ∨ 0x80 ≤ c.toNat) →
    ((lenCode ∈ s.crcList.get a → s.operands.lenval < 2 ^ (8 * s.lenWidth)) →
      ∃ bs u, exec (.calccrc a) s = .next (s.ended { bytes := some bs }) ∧
        exec .chksum (s.issue .chksum { buf := coveredBuffer s a s.operands.buf s.operands.lenval }) = .next u ∧
        u.result.bytes = some bs) ∧
    (lenCode ∈ s.crcList.get a → 2 ^ (8 * s.lenWidth) ≤ s.operands.lenval →
      exec (.calccrc a) s = .next (s.ended { status := .operand }))

/-- R770, R750, R760: BUILD writes the format's tokens with CALCLEN's length and CALCCRC's checksum, and VERIFY with the
same data, that length and the checksum's wire bytes passes. VERIFY of any received bytes, unstaffed when CS = 1, passes
exactly when they are CALCCRC's, and its report shows both; it raises E_OPERAND as CALCCRC does. BUILD raises
E_LEN_OVERFLOW when a length it uses does not fit W bytes, and uses 0 when the format and the checksum use none. -/
def Obligations.BuildAndVerifyAgree : Prop :=
  (∀ (s : State) (a : Action) (t : Template) (data : Buffer) (l : Nat), s.Consistent → s.faulted = false →
    s.template.get a = some t → calcLen s a data = .ok l →
    ∃ f c rep, s.Answers (.calccrc a) { buf := data, lenval := l } { bytes := some c } ∧
      s.Answers (.build a) { buf := data } { bytes := some f } ∧
      f = (s.fmt.get a).flatMap (frameBytes s data l c) ∧
      (∀ rx, rx = frameBytes s data l c crcCode →
        s.Answers (.verify a) { buf := data, lenval := l, buf2 := rx } { report := some rep }) ∧
      rep.pass = true ∧ rep.got = some (.buf c)) ∧
  (∀ (s : State) (a : Action) (data rx : Buffer) (l : Nat), s.faulted = false → s.committed = true →
    (lenCode ∈ s.crcList.get a → 2 ^ (8 * s.lenWidth) ≤ l →
      s.Answers (.verify a) { buf := data, lenval := l, buf2 := rx } { status := .operand }) ∧
    ((lenCode ∈ s.crcList.get a → l < 2 ^ (8 * s.lenWidth)) →
      ∃ c u, s.Answers (.calccrc a) { buf := data, lenval := l } { bytes := some c } ∧
        s.Answers .unstuff { buf := rx } { bytes := some u } ∧
        ∀ got, got = (if s.crcStaffed then u else rx) →
          s.Answers (.verify a) { buf := data, lenval := l, buf2 := rx }
            { report := some ⟨got = c, "crc", .exactly (.buf c), some (.buf got)⟩ })) ∧
  (∀ (s : State) (a : Action) (t : Template) (data : Buffer), s.Consistent → s.faulted = false →
    s.template.get a = some t →
    (lenCode ∈ s.fmt.get a ∨ lenCode ∈ s.crcList.get a →
      2 ^ (8 * s.lenWidth) ≤ ((s.lenList.get a).map (lengthOf s a data)).sum →
      s.Answers (.build a) { buf := data } { status := .lenOverflow }) ∧
    (lenCode ∉ s.fmt.get a → lenCode ∉ s.crcList.get a →
      ∃ c, s.Answers (.calccrc a) { buf := data } { bytes := some c } ∧
        s.Answers (.build a) { buf := data } { bytes := some ((s.fmt.get a).flatMap (frameBytes s data 0 c)) }))

/-! ### The host's read loop -/

/-- R530, R540: once eos is set, the host's read loop stops after at most one split command more than the stream has
bytes. The steps it takes are three for each split command (issue, execute, read the result) and, for each frame
delivered, those of its tests and its drop, and no others (assumption log 6). -/
def Obligations.ReadLoopEndsAfterEndOfStream : Prop :=
  ∀ s : State, s.Consistent → s.pending = [] → s.loop.phase = .issue → s.loop.eos = true →
    ∃ k t e frames, Sys2Proof.core.run k s = .next t ∧ t.loop.phase = .stopped e ∧
      splitsIssued k s ≤ s.loop.stream.length + 1 ∧ t.loop.delivered = s.loop.delivered ++ frames ∧
      k = 3 * splitsIssued k s + deliverySteps s.loop.tests * frames.length
end

