-- ==== Sys2Proof/Laws/PerInstr.lean ====
section
/-! SUPPORT. The statements made per instruction. FixedBits: the word the encoder writes has the fixed bits of its row of
spec/opcode_table.json (its "mask" and "match"). -/

namespace Sys2Proof.Laws.FixedBits

/-- The "mask" of each row of spec/opcode_table.json. -/
def mask : Instr → Word
  | .setconst => 0xFFFFFFFF
  | .setstaff => 0xFFFFFFFF
  | .setcrc => 0xFFFFFFFF
  | .setlen => 0xFFFFFFFF
  | .setfmt _ => 0xFFFFE7FF
  | .setcrclist _ => 0xFFFFE7FF
  | .setlenlist _ => 0xFFFFE7FF
  | .setmax => 0xFFFFFFFF
  | .status => 0xFFFFFFFF
  | .reset => 0xFFFFFFFF
  | .type => 0xFFFFFFFF
  | .lenbit => 0xFFFFFFFF
  | .write _ => 0xFFFFFEFF
  | .check _ _ => 0xFFFFFCFF
  | .hexdec => 0xFFFFFFFF
  | .durparse => 0xFFFFFFFF
  | .countbit _ => 0xFFFFFDFF
  | .pack8 _ => 0xFFFFFEFF
  | .pack16 _ => 0xFFFFFEFF
  | .commit => 0xFFFFFFFF
  | .splitse _ _ => 0xFFFFE3FF
  | .splitlen _ _ => 0xFFFFE3FF
  | .stuff => 0xFFFFFFFF
  | .unstuff => 0xFFFFFFFF
  | .mod256 => 0xFFFFFFFF
  | .crc16 _ => 0xFFFFFEFF
  | .chksum => 0xFFFFFFFF
  | .calclen _ => 0xFFFFE7FF
  | .calccrc _ => 0xFFFFE7FF
  | .build _ => 0xFFFFE7FF
  | .verify _ => 0xFFFFE7FF

/-- The "match" of each row of spec/opcode_table.json. -/
def value : Instr → Word
  | .setconst => 0x00000001
  | .setstaff => 0x00000002
  | .setcrc => 0x00000003
  | .setlen => 0x00000004
  | .setfmt _ => 0x00000005
  | .setcrclist _ => 0x00000006
  | .setlenlist _ => 0x00000007
  | .setmax => 0x00000008
  | .status => 0x00000009
  | .reset => 0x0000000A
  | .type => 0x00000010
  | .lenbit => 0x00000011
  | .write _ => 0x00000012
  | .check _ _ => 0x00000013
  | .hexdec => 0x00000014
  | .durparse => 0x00000015
  | .countbit _ => 0x00000020
  | .pack8 _ => 0x00000021
  | .pack16 _ => 0x00000022
  | .commit => 0x00000030
  | .splitse _ _ => 0x00000040
  | .splitlen _ _ => 0x00000041
  | .stuff => 0x00000050
  | .unstuff => 0x00000051
  | .mod256 => 0x00000060
  | .crc16 _ => 0x00000061
  | .chksum => 0x00000062
  | .calclen _ => 0x00000063
  | .calccrc _ => 0x00000064
  | .build _ => 0x00000065
  | .verify _ => 0x00000066

/-- The fixed bits of the row stand in the encoded word. -/
def Statement (i : Instr) : Prop := encode i &&& mask i = value i

theorem setconst : Statement .setconst := rfl

theorem setstaff : Statement .setstaff := rfl

theorem setcrc : Statement .setcrc := rfl

theorem setlen : Statement .setlen := rfl

theorem setfmt (a : Action) : Statement (.setfmt a) := by cases a <;> rfl

theorem setcrclist (a : Action) : Statement (.setcrclist a) := by cases a <;> rfl

theorem setlenlist (a : Action) : Statement (.setlenlist a) := by cases a <;> rfl

theorem setmax : Statement .setmax := rfl

theorem status : Statement .status := rfl

theorem reset : Statement .reset := rfl

theorem type : Statement .type := rfl

theorem lenbit : Statement .lenbit := rfl

theorem write (ord : Order) : Statement (.write ord) := by cases ord <;> rfl

theorem check (ord : Order) (grid : Grid) : Statement (.check ord grid) := by cases ord <;> cases grid <;> rfl

theorem hexdec : Statement .hexdec := rfl

theorem durparse : Statement .durparse := rfl

theorem countbit (grid : Grid) : Statement (.countbit grid) := by cases grid <;> rfl

theorem pack8 (ord : Order) : Statement (.pack8 ord) := by cases ord <;> rfl

theorem pack16 (ord : Order) : Statement (.pack16 ord) := by cases ord <;> rfl

theorem commit : Statement .commit := rfl

theorem splitse (eos : Bool) (a : Action) : Statement (.splitse eos a) := by cases eos <;> cases a <;> rfl

theorem splitlen (eos : Bool) (a : Action) : Statement (.splitlen eos a) := by cases eos <;> cases a <;> rfl

theorem stuff : Statement .stuff := rfl

theorem unstuff : Statement .unstuff := rfl

theorem mod256 : Statement .mod256 := rfl

theorem crc16 (ord : Order) : Statement (.crc16 ord) := by cases ord <;> rfl

theorem chksum : Statement .chksum := rfl

theorem calclen (a : Action) : Statement (.calclen a) := by cases a <;> rfl

theorem calccrc (a : Action) : Statement (.calccrc a) := by cases a <;> rfl

theorem build (a : Action) : Statement (.build a) := by cases a <;> rfl

theorem verify (a : Action) : Statement (.verify a) := by cases a <;> rfl

end Sys2Proof.Laws.FixedBits
end

