-- ==== Sys2Proof/Machine/AssemblerText.lean ====
section
/-! DEFINITION. The host's assembler, from text: `MNEMONIC[.suffix...] [name=value, ...]` and the pseudo-commands of R111
as commands (spec/30_encoding.md R110, R111). The FDC never sees any of it. -/

namespace Sys2Proof.Machine

/-- A text, character by character. -/
abbrev Text := List Char

/-! ### Cutting text -/

/-- The text without spaces at its front. -/
def trimFront (t : Text) : Text := t.dropWhile (· == ' ')

/-- The text without spaces at either end. -/
def trimText (t : Text) : Text := (trimFront (trimFront t).reverse).reverse

/-- Cut at every character that `sep` names, whatever stands around it. -/
def cutAt (sep : Char → Bool) : Text → List Text
  | [] => [[]]
  | c :: t =>
    match sep c, cutAt sep t with
    | true, l => [] :: l
    | false, w :: l => (c :: w) :: l
    | false, [] => [[c]]

/-- The words of a text. -/
def wordsOf (t : Text) : List Text := (cutAt (· == ' ') t).filter (· ≠ [])

/-- Brackets of any kind: how far a character opens them. Braces are written by their codes. -/
def opens (c : Char) : Bool := c == '(' || c == '[' || c.toNat == 0x7B

/-- How far a character closes them. -/
def closes (c : Char) : Bool := c == ')' || c == ']' || c.toNat == 0x7D

/-- Cut at the commas that stand outside every bracket and every pair of quotes. -/
def cutCommas : Text → Nat → Bool → List Text
  | [], _, _ => [[]]
  | c :: t, depth, quoted =>
    if c == ',' && depth == 0 && !quoted then [] :: cutCommas t depth quoted
    else
      let depth := if quoted then depth else if opens c then depth + 1 else if closes c then depth - 1 else depth
      match cutCommas t depth (if c == '"' then !quoted else quoted) with
      | w :: l => (c :: w) :: l
      | [] => [[c]]

/-- The parts between commas, trimmed; an empty text has none. -/
def commaParts (t : Text) : List Text :=
  if trimText t = [] then [] else (cutCommas t 0 false).map trimText

/-- What stands between a first and a last character that `l` and `r` name. -/
def between (l r : Char → Bool) : Text → Option Text
  | [] => none
  | c :: t => if l c && (t.getLast?.any r) then some t.dropLast else none

/-- All answers of a list, or none. -/
def allSome {α : Type} : List (Option α) → Option (List α)
  | [] => some []
  | none :: _ => none
  | some x :: l =>
    match allSome l with
    | some xs => some (x :: xs)
    | none => none

/-! ### Values -/

/-- The value of a digit in the given base. -/
def digitIn (base : Nat) (c : Char) : Option Nat :=
  let n := c.toNat
  let v := if 0x30 ≤ n ∧ n ≤ 0x39 then n - 0x30
    else if 0x61 ≤ n ∧ n ≤ 0x66 then n - 0x61 + 10
    else if 0x41 ≤ n ∧ n ≤ 0x46 then n - 0x41 + 10
    else base
  if v < base then some v else none

/-- A number of one digit or more. -/
def digitsIn (base : Nat) (t : Text) : Option Nat :=
  if t = [] then none
  else
    match allSome (t.map (digitIn base)) with
    | some ds => some (ds.foldl (fun n d => base * n + d) 0)
    | none => none

/-- A natural number, decimal or with `0x`. -/
def natOf : Text → Option Nat
  | '0' :: 'x' :: t => digitsIn 16 t
  | t => digitsIn 10 t

/-- An integer. -/
def intOf : Text → Option Int
  | '-' :: t => (natOf t).map fun n => -(n : Int)
  | t => (natOf t).map fun n => (n : Int)

/-- A number below 2^n, as a word of n bits. -/
def wordOf (n : Nat) (t : Text) : Option (BitVec n) :=
  match natOf t with
  | some x => if x < 2 ^ n then some (BitVec.ofNat n x) else none
  | none => none

/-- An integer that n bits hold in two's complement, as those bits. -/
def signedOf (n : Nat) (t : Text) : Option (BitVec n) :=
  (intOf t).bind fun x => if -2 ^ (n - 1) ≤ x ∧ x < 2 ^ (n - 1) then some (BitVec.ofInt n x) else none

/-- One byte in hex. R110 shows two digits and says no more: any count of digits is read, with or without `0x`, if the
number is below 256 (assumption log 17, DESIGN CHOICE). -/
def byteOf (t : Text) : Option Byte :=
  let digits := match t with
    | '0' :: 'x' :: d => d
    | _ => t
  (digitsIn 16 digits).bind fun n => if n < 256 then some (BitVec.ofNat 8 n) else none

/-- Bytes in hex inside brackets (R110). -/
def bufferOf (t : Text) : Option Buffer :=
  match between (· == '[') (· == ']') t with
  | some b => allSome ((wordsOf b).map byteOf)
  | none => none

/-- A quoted byte string: the UTF-8 bytes between the quotes. -/
def quotedOf (t : Text) : Option Buffer :=
  match between (· == '"') (· == '"') t with
  | some b => some (b.flatMap fun c => (String.utf8EncodeChar c).map fun u => BitVec.ofNat 8 u.toNat)
  | none => none

/-- A token of a token list: a marker, `c<k>`, or a code in hex (R106, R110). -/
def tokenCodeOf (t : Text) : Option Byte :=
  if t = "len#".toList then some lenCode
  else if t = "data#".toList then some dataCode
  else if t = "crc#".toList then some crcCode
  else
    match t with
    | 'c' :: d =>
      match digitsIn 10 d with
      | some k => if k < Config.constSlots then some (BitVec.ofNat 8 (0x80 + k)) else none
      | none => byteOf t
    | _ => byteOf t

/-- A token list (R110). -/
def tokenListOf (t : Text) : Option (List Byte) :=
  match between (· == '[') (· == ']') t with
  | some b => allSome ((wordsOf b).map tokenCodeOf)
  | none => none

/-- A set of byte values between braces (R111). -/
def byteSetOf (t : Text) : Option (BitVec 256) :=
  match between (fun c => c.toNat == 0x7B) (fun c => c.toNat == 0x7D) t with
  | some b =>
    match allSome ((commaParts b).map byteOf) with
    | some l => some (patternSet l)
    | none => none
  | none => none

/-! ### Typed values -/

/-- The ten numeric kinds (R48). -/
def numKinds : List NumKind :=
  [.int .i8, .int .i16, .int .i32, .int .i64, .int .u8, .int .u16, .int .u32, .int .u64, .flt .f32, .flt .f64]

/-- A numeric kind by its name (R48). -/
def kindOf (t : Text) : Option NumKind := numKinds.find? fun k => (showKind k).toList == t

/-- A range bound: absent when it is written `none` (R48). -/
def boundOf {α : Type} (f : Text → Option α) (t : Text) : Option (Option α) :=
  if t = "none".toList then some none else (f t).map some

/-- A boolean. -/
def boolOf (t : Text) : Option Bool :=
  if t = "true".toList then some true else if t = "false".toList then some false else none

/-- A range of a kind with the texts of its bounds. -/
def rangeOf : NumKind → Text → Text → Option Value
  | .int k, lo, hi =>
    match boundOf intOf lo, boundOf intOf hi with
    | some a, some b => some (.rngInt k a b)
    | _, _ => none
  | .flt k, lo, hi =>
    match boundOf natOf lo, boundOf natOf hi with
    | some a, some b => some (.rngFlt k a b)
    | _, _ => none

/-- A variant by its name and the texts of its arguments (R48, R110). -/
def variantOf (name : String) : List Text → Option Value
  | [] => if name = "EMPTY" then some .empty else none
  | [x] =>
    if name = "BOOL" then (boolOf x).map .bool
    else if name = "STR" then (quotedOf x).map .str
    else if name = "BYTES" then (quotedOf x).map .bytes
    else if name = "TIME" then (quotedOf x).map .time
    else if name = "ERR" then (quotedOf x).map .err
    else
      match kindOf name.toList with
      | some (.int k) => (intOf x).map (.int k)
      | _ => none
  | [k, x] =>
    match kindOf k with
    | some (.flt k) => if name = "FLT" then (natOf x).map (.flt k) else none
    | some (.int k) => if name = "INT" then (intOf x).map (.int k) else none
    | none => none
  | [k, lo, hi] =>
    match kindOf k with
    | some k => if name = "RNG" then rangeOf k lo hi else none
    | none => none
  | _ => none

/-- A typed value written as its variant (R110). -/
def valueOf (t : Text) : Option Value :=
  let name := t.takeWhile (· ≠ '(')
  match t.dropWhile (· ≠ '(') with
  | [] => variantOf (String.ofList name) []
  | r =>
    match between (· == '(') (· == ')') r with
    | some args => variantOf (String.ofList name) (commaParts args)
    | none => none

/-- A list of typed values inside brackets. -/
def valueListOf (t : Text) : Option (List Value) :=
  match between (· == '[') (· == ']') t with
  | some b => allSome ((commaParts b).map valueOf)
  | none => none

/-! ### Operands -/

/-- A pair `name=value`, cut at its first equals sign. -/
def pairOf (t : Text) : Option (String × Text) :=
  match t.dropWhile (· ≠ '=') with
  | [] => none
  | _ :: v => some (String.ofList (trimText (t.takeWhile (· ≠ '='))), trimText v)

/-- One pair set in an operand record. R110 gives no written form for `rec`, so it is not among them; and it does not
say what a number outside its field's range does: an `elapsed`, a `word` or a byte set that its field cannot hold is
refused (assumption log 17, DESIGN CHOICE). -/
def setOperand (o : Operands) (p : String × Text) : Option Operands :=
  if p.1 = "val" then (valueOf p.2).map fun x => { o with val := x }
  else if p.1 = "vals" then (valueListOf p.2).map fun x => { o with vals := x }
  else if p.1 = "buf" then (bufferOf p.2).map fun x => { o with buf := x }
  else if p.1 = "buf2" then (bufferOf p.2).map fun x => { o with buf2 := x }
  else if p.1 = "text" then (quotedOf p.2).map fun x => { o with text := x }
  else if p.1 = "errtext" then (quotedOf p.2).map fun x => { o with errtext := x }
  else if p.1 = "elapsed" then (signedOf 64 p.2).map fun x => { o with elapsed := x }
  else if p.1 = "cur" then (natOf p.2).map fun x => { o with cur := x }
  else if p.1 = "lenval" then (natOf p.2).map fun x => { o with lenval := x }
  else if p.1 = "k" then (natOf p.2).map fun x => { o with k := x }
  else if p.1 = "word" then (wordOf 32 p.2).map fun x => { o with word := x }
  else if p.1 = "pat" then (byteSetOf p.2).map fun x => { o with pat := x }
  else if p.1 = "tokens" then (tokenListOf p.2).map fun x => { o with tokens := x }
  else none

/-- Every pair set, from left to right. R110 does not speak of two pairs that name one field: the last one wins
(assumption log 17, DESIGN CHOICE). -/
def setOperands : List (String × Text) → Operands → Option Operands
  | [], o => some o
  | p :: ps, o =>
    match setOperand o p with
    | some o => setOperands ps o
    | none => none

/-- The operand record of some pairs. R104 and R110 do not say what a field that no pair names holds: it is the blank
record's (EMPTY, [], 0), and a command whose rule names it reads that (assumption log 17, DESIGN CHOICE). -/
def operandsOf (ps : List (String × Text)) : Option Operands := setOperands ps {}

/-! ### Lines -/

/-- A suffix by its name (R110). -/
def suffixOf (t : Text) : Option Suffix :=
  if t = "BE".toList then some .be
  else if t = "LE".toList then some .le
  else if t = "G8".toList then some .g8
  else if t = "G16".toList then some .g16
  else if t = "EOS".toList then some .eos
  else if t = "R".toList then some .r
  else if t = "W".toList then some .w
  else if t = "E".toList then some .e
  else none

/-- A line's mnemonic, its suffixes and its pairs. -/
def lineParts (line : Text) : Option (String × List Suffix × List (String × Text)) :=
  let line := trimText line
  let head := line.takeWhile (· ≠ ' ')
  match cutAt (· == '.') head with
  | [] => none
  | m :: ss =>
    match allSome (ss.map suffixOf), allSome ((commaParts (line.drop head.length)).map pairOf) with
    | some ss, some ps => some (String.ofList m, ss, ps)
    | _, _ => none

/-- `SPLIT.<a>[.EOS] buf=...` (R111), with the suffixes of a splitter. R111's form has the one pair; a line with another
pair, or without it, is refused (assumption log 17, DESIGN CHOICE). -/
def splitLine (s : State) (ss : List Suffix) (ps : List (String × Text)) : Option Command :=
  match assemble "SPLITSE" ss, ps with
  | some _, [(name, t)] =>
    if name = "buf" then (bufferOf t).map (splitCommand s (suffixAction ss) (.eos ∈ ss)) else none
  | _, _ => none

/-- `LOADSTAFF esc=<e>, pattern=[p1 ... pn]` (R111). R111's form has no suffix and these two pairs; a line with a suffix
or a further pair is refused (assumption log 17, DESIGN CHOICE). -/
def loadStaffLine (ss : List Suffix) (ps : List (String × Text)) : Option Command :=
  if ss ≠ [] ∨ ps.length ≠ 2 then none
  else
    match (ps.lookup "esc").bind (wordOf 8), (ps.lookup "pattern").bind bufferOf with
    | some e, some p => some (loadStaff e p)
    | _, _ => none

/-- An assembler line as a command (R110, R111). The host knows FMT[a] (R111), so the state is given. -/
def assembleLine (s : State) (line : Text) : Option Command :=
  match lineParts line with
  | none => none
  | some (m, ss, ps) =>
    if m = "SPLIT" then splitLine s ss ps
    else if m = "LOADSTAFF" then loadStaffLine ss ps
    else
      match assemble m ss, operandsOf ps with
      | some i, some o => some { word := encode i, operands := o }
      | _, _ => none

end Sys2Proof.Machine
end

