-- ==== Sys2Proof/Tests/Slice0.lean ====
section
/-! SUPPORT. The model's own tests: operands that WellFormed refuses, command words written bit by bit from the encoding
(spec/30_encoding.md R100, R107), the spec's own vectors (spec/95_test_vectors.md, cited by their ids), and for every
statement that has hypotheses a state and operands that meet them. -/

open Sys2Proof Sys2Proof.Machine

namespace Sys2Proof.Tests

-- One theorem at a time: evaluated side by side, they would take a thread's stack each.
set_option Elab.async false

/-! ### Helpers -/

/-- The state with exactly one command issued: this word, this operand record. -/
def issued (s : State) (w : Word) (o : Operands) : State := { s with pending := [⟨w, o⟩] }

/-- The state after one step that runs this word. -/
def after (s : State) (w : Word) (o : Operands) : State :=
  match step (issued s w o) with
  | .next t => t
  | _ => s

/-- The result record of one step that runs this word. -/
def answer (s : State) (w : Word) (o : Operands) : Result := (after s w o).result

/-- The state after some words, from reset. -/
def loaded (l : List (Word × Operands)) : State := l.foldl (fun s c => after s c.1 c.2) State.reset

/-- L1-4's configuration: start 01 02, end 03 04, M = 16. -/
def seState : State :=
  loaded [(0x01, { k := 0, buf := [1, 2] }), (0x01, { k := 1, buf := [3, 4] }), (0x05, { tokens := [0x80, 2, 0x81] }),
    (0x08, { word := 16 }), (0x30, {})]

/-- P1's configuration: L1-5's, with CRCLIST[R] = [data#]. -/
def lenState : State :=
  loaded [(0x01, { k := 0, buf := [1, 2] }), (0x04, { word := 1 }), (0x05, { tokens := [0x80, 1, 2, 3] }),
    (0x07, { tokens := [2] }), (0x06, { tokens := [2] }), (0x08, { word := 16 }), (0x30, {})]

/-- P5's configuration: staffed, CRC-16 low byte first. -/
def staffState : State :=
  loaded [(0x01, { k := 0, buf := [1, 2] }), (0x02, { word := 0x110, pat := 4 }), (0x03, { word := 0xD }),
    (0x04, { word := 1 }), (0x05, { tokens := [0x80, 1, 2, 3] }), (0x07, { tokens := [2] }),
    (0x06, { tokens := [0x80, 1, 2] }), (0x08, { word := 32 }), (0x30, {})]

/-- P3's fault: a COMMIT that raised E_CFG_NO_START. -/
def faultState : State :=
  loaded [(0x01, { k := 0, buf := [1, 2] }), (0x05, { tokens := [2, 0x80] }), (0x08, { word := 16 }), (0x30, {})]

/-- L1-2's value list. -/
def listL12 : List Value := [.bool true, .int .u8 1, .int .u16 1, .int .u32 1, .int .u64 1]

/-- L1-1's buffer. -/
def bufL11 : Buffer := [0xfe, 0xfe, 0x00, 0x06, 0x04, 0x09, 0x00, 0x00, 0x21, 0x00, 0x00]

/-! ### WellFormed -/

theorem test_wf_refuses_i8_above : Value.wf (.int .i8 128) = false := by decide
theorem test_wf_refuses_i16_below : Value.wf (.int .i16 (-32769)) = false := by decide
theorem test_wf_refuses_i32_above : Value.wf (.int .i32 0x80000000) = false := by decide
theorem test_wf_refuses_i64_below : Value.wf (.int .i64 (-0x8000000000000001)) = false := by decide
theorem test_wf_refuses_u8_negative : Value.wf (.int .u8 (-1)) = false := by decide
theorem test_wf_refuses_u16_above : Value.wf (.int .u16 0x10000) = false := by decide
theorem test_wf_refuses_u32_above : Value.wf (.int .u32 0x100000000) = false := by decide
theorem test_wf_refuses_u64_above : Value.wf (.int .u64 0x10000000000000000) = false := by decide
theorem test_wf_refuses_f32_pattern : Value.wf (.flt .f32 0x100000000) = false := by decide
theorem test_wf_refuses_f64_pattern : Value.wf (.flt .f64 0x10000000000000000) = false := by decide
theorem test_wf_refuses_range_minimum : Value.wf (.rngInt .u8 (some (-1)) none) = false := by decide
theorem test_wf_refuses_range_maximum : Value.wf (.rngInt .i8 none (some 128)) = false := by decide
theorem test_wf_refuses_float_range : Value.wf (.rngFlt .f32 (some 0x100000000) none) = false := by decide
theorem test_wf_refuses_record_exact : RawRec.wf { i8 := { point := some 200 } } = false := by decide
theorem test_wf_refuses_record_minimum : RawRec.wf { u16 := { min := some (-1) } } = false := by decide
theorem test_wf_refuses_record_maximum : RawRec.wf { f64 := { max := some 0x10000000000000000 } } = false := by decide
theorem test_wf_refuses_operand_list : Operands.wf { vals := [.bool true, .int .u8 256] } = false := by decide
theorem test_wf_accepts_boundaries :
    Operands.wf { val := .int .i8 (-128), vals := [.int .u64 0xFFFFFFFFFFFFFFFF], record := { i16 := { max := some 32767 } } }
      = true := by decide

/-! ### Decoding: one word for every command, field by field -/

theorem test_decode_setconst : decodeTableWord 32 0b0000000000000000000_00_0_0_0_00000001 = some .setconst := by decide
theorem test_decode_setstaff : decodeTableWord 32 0b0000000000000000000_00_0_0_0_00000010 = some .setstaff := by decide
theorem test_decode_setcrc : decodeTableWord 32 0b0000000000000000000_00_0_0_0_00000011 = some .setcrc := by decide
theorem test_decode_setlen : decodeTableWord 32 0b0000000000000000000_00_0_0_0_00000100 = some .setlen := by decide
theorem test_decode_setfmt : decodeTableWord 32 0b0000000000000000000_10_0_0_0_00000101 = some (.setfmt .e) := by decide
theorem test_decode_setcrclist :
    decodeTableWord 32 0b0000000000000000000_01_0_0_0_00000110 = some (.setcrclist .w) := by decide
theorem test_decode_setlenlist :
    decodeTableWord 32 0b0000000000000000000_00_0_0_0_00000111 = some (.setlenlist .r) := by decide
theorem test_decode_setmax : decodeTableWord 32 0b0000000000000000000_00_0_0_0_00001000 = some .setmax := by decide
theorem test_decode_status : decodeTableWord 32 0b0000000000000000000_00_0_0_0_00001001 = some .status := by decide
theorem test_decode_reset : decodeTableWord 32 0b0000000000000000000_00_0_0_0_00001010 = some .reset := by decide
theorem test_decode_type : decodeTableWord 32 0b0000000000000000000_00_0_0_0_00010000 = some .type := by decide
theorem test_decode_lenbit : decodeTableWord 32 0b0000000000000000000_00_0_0_0_00010001 = some .lenbit := by decide
theorem test_decode_write : decodeTableWord 32 0b0000000000000000000_00_0_0_1_00010010 = some (.write .le) := by decide
theorem test_decode_check : decodeTableWord 32 0b0000000000000000000_00_0_1_0_00010011 = some (.check .be .g16) := by decide
theorem test_decode_hexdec : decodeTableWord 32 0b0000000000000000000_00_0_0_0_00010100 = some .hexdec := by decide
theorem test_decode_durparse : decodeTableWord 32 0b0000000000000000000_00_0_0_0_00010101 = some .durparse := by decide
theorem test_decode_countbit :
    decodeTableWord 32 0b0000000000000000000_00_0_1_0_00100000 = some (.countbit .g16) := by decide
theorem test_decode_pack8 : decodeTableWord 32 0b0000000000000000000_00_0_0_1_00100001 = some (.pack8 .le) := by decide
theorem test_decode_pack16 : decodeTableWord 32 0b0000000000000000000_00_0_0_0_00100010 = some (.pack16 .be) := by decide
theorem test_decode_commit : decodeTableWord 32 0b0000000000000000000_00_0_0_0_00110000 = some .commit := by decide
theorem test_decode_splitse :
    decodeTableWord 32 0b0000000000000000000_01_1_0_0_01000000 = some (.splitse true .w) := by decide
theorem test_decode_splitlen :
    decodeTableWord 32 0b0000000000000000000_10_0_0_0_01000001 = some (.splitlen false .e) := by decide
theorem test_decode_stuff : decodeTableWord 32 0b0000000000000000000_00_0_0_0_01010000 = some .stuff := by decide
theorem test_decode_unstuff : decodeTableWord 32 0b0000000000000000000_00_0_0_0_01010001 = some .unstuff := by decide
theorem test_decode_mod256 : decodeTableWord 32 0b0000000000000000000_00_0_0_0_01100000 = some .mod256 := by decide
theorem test_decode_crc16 : decodeTableWord 32 0b0000000000000000000_00_0_0_1_01100001 = some (.crc16 .le) := by decide
theorem test_decode_chksum : decodeTableWord 32 0b0000000000000000000_00_0_0_0_01100010 = some .chksum := by decide
theorem test_decode_calclen : decodeTableWord 32 0b0000000000000000000_01_0_0_0_01100011 = some (.calclen .w) := by decide
theorem test_decode_calccrc : decodeTableWord 32 0b0000000000000000000_00_0_0_0_01100100 = some (.calccrc .r) := by decide
theorem test_decode_build : decodeTableWord 32 0b0000000000000000000_10_0_0_0_01100101 = some (.build .e) := by decide
theorem test_decode_verify : decodeTableWord 32 0b0000000000000000000_01_0_0_0_01100110 = some (.verify .w) := by decide

/-- L2-CTL-13 to 15, L2-VAL-26, L2-SPL-37 and R108's edges: illegal words. -/
theorem test_decode_refuses :
    [0x00000110, 0x00002009, 0x00000016, 0x00000212, 0x00001840, 0x00000000, 0x0000000B, 0x00000067, 0x80000061].map
      (decodeTableWord 32) = List.replicate 9 none := by decide

/-- R110's example, an inadmissible suffix, and L2-STF's rule by R111's pseudo-command. -/
theorem test_assemble_lines :
    assembleLine .reset "CHECK.LE.G16 val=U8(7), buf=[07 00], cur=0".toList =
      some ⟨0x00000313, { val := .int .u8 7, buf := [7, 0], cur := 0 }⟩ ∧
    assembleLine .reset "WRITE.G16 val=BOOL(true)".toList = none ∧
    assembleLine .reset "LOADSTAFF esc=0x10, pattern=[02]".toList = some ⟨0x00000002, { word := 0x110, pat := 4 }⟩ := by
  decide +kernel

/-! ### The spec's vectors -/

/-- L2-CTL-4, and R801's example. -/
theorem test_setconst :
    (after .reset 0x01 { k := 0, buf := [1, 2] }).consts[0] = ⟨true, [1, 2]⟩ ∧
      after .reset 0x01 { k := 128 } = { State.reset with result := { status := .operand } } := by decide +kernel

/-- R802's example, and L2-CTL-1. -/
theorem test_setstaff :
    (after .reset 0x02 { word := 0x110, pat := 4 }).rule = some ⟨0x10, 4⟩ ∧
      after .reset 0x02 { word := 0x200 } = { State.reset with result := { status := .operand } } := by decide +kernel

/-- L2-CTL-5, and L2-CTL-2. -/
theorem test_setcrc :
    let s := after .reset 0x03 { word := 5 }
    (s.alg = 1 ∧ s.cord = .le ∧ s.crcStaffed = false) ∧ answer .reset 0x03 { word := 0x10 } = { status := .operand } := by
  decide +kernel

/-- L2-CTL-3, with R37's fields. -/
theorem test_setlen :
    let s := after .reset 0x04 { word := 0x54 }
    (s.lenWidth = 4 ∧ s.lenStaffed = true ∧ s.lenCountsWire = false ∧ s.lord = .le) ∧
      answer .reset 0x04 { word := 0x80 } = { status := .operand } := by decide +kernel

/-- R805's example, and L2-CTL-11: the fault is checked before the lock. -/
theorem test_setfmt :
    (after .reset 0x05 { tokens := [0x80, 1, 2, 3] }).fmt = ⟨[0x80, 1, 2, 3], [], []⟩ ∧
      answer faultState 0x05 {} = { status := .faulted } := by decide +kernel

/-- R806's example. -/
theorem test_setcrclist : (after .reset 0x806 { tokens := [2] }).crcList = ⟨[], [2], []⟩ := by decide +kernel

/-- R807's example, for action E. -/
theorem test_setlenlist : (after .reset 0x1007 { tokens := [2] }).lenList = ⟨[], [], [2]⟩ := by decide +kernel

/-- L2-CTL-6. -/
theorem test_setmax :
    (after .reset 0x08 { word := 256 }).maxFrame = 256 ∧ answer lenState 0x08 { word := 32 } = { status := .locked } := by
  decide +kernel

/-- L2-CTL-7, 8, 9. -/
theorem test_status :
    answer .reset 0x09 {} = { stat := some 0 } ∧ answer lenState 0x09 {} = { stat := some 0x100 } ∧
      answer faultState 0x09 {} = { stat := some 0x223 } := by decide +kernel

/-- L2-CTL-16. -/
theorem test_reset : after faultState 0x0A {} = State.reset := by decide +kernel

/-- L2-VAL-1, 2, 3, 4, 5. -/
theorem test_type :
    [{ i16 := { point := some 5, min := some 1 } }, { u8 := { max := some 9 } }, {},
      { i8 := { point := some 1 }, bool := some true }, { f64 := { min := some 0x3FE0000000000000 } }].map
      (fun r => answer .reset 0x10 { record := r }) =
    [{ kind := some 0x02 }, { kind := some 0x15 }, { kind := some 0 }, { status := .valueMultikind },
      { kind := some 0x1A }] := by decide +kernel

/-- L2-VAL-9, 10, 11, 12, 13. -/
theorem test_lenbit :
    [.rngInt .i32 none (some 7), .str [0x61, 0x62, 0x63], .bytes [0x30, 0x78, 0x30, 0x31, 0x30, 0x32],
      .bytes [0x30, 0x78, 0x7a, 0x7a], .time [0x32, 0x6d, 0x73]].map (fun v => answer .reset 0x11 { val := v }) =
    [{ n := some 32 }, { n := some 24 }, { n := some 16 }, { status := .hex }, { n := some 0 }] := by decide +kernel

/-- L2-VAL-14, 15, 16, 19. -/
theorem test_write :
    answer .reset 0x112 { val := .int .i16 (-2) } = { bytes := some [0xfe, 0xff] } ∧
    answer .reset 0x012 { val := .int .i16 (-2) } = { bytes := some [0xff, 0xfe] } ∧
    answer .reset 0x012 { val := .int .i8 (-1) } = { bytes := some [0xff] } ∧
    answer .reset 0x112 { val := .flt .f64 0x3FF0000000000000 } = { bytes := some [0, 0, 0, 0, 0, 0, 0xf0, 0x3f] } := by
  decide +kernel

/-- What a test of CHECK compares: the status, the cursor, the pass flag and the decoded value. -/
structure CheckView where
  status : Status
  cur : Option Nat
  pass : Option Bool
  got : Option (Option Datum)
  deriving DecidableEq, Repr

/-- The view of CHECK's result for this word and operand record, from reset. -/
def checkView (c : Word × Operands) : CheckView :=
  let r := answer .reset c.1 c.2
  ⟨r.status, r.cur, r.report.map Report.pass, r.report.map Report.got⟩

/-- L2-CHK-3, 4, 5, 7, 8, 12: rounding, the mirror, the two short buffers, a bit, a signed range. -/
theorem test_check_fields :
    [((0x13 : Word), ({ val := .int .u16 0x102, buf := [0, 0, 1, 2], cur := 8 } : Operands)),
      (0x213, { val := .int .u8 7, buf := [0, 7] }), (0x213, { val := .int .u8 7, buf := [7] }),
      (0x13, { val := .int .u16 0x102, buf := [1] }), (0x13, { val := .bool true, buf := [8], cur := 3 }),
      (0x13, { val := .rngInt .i8 none (some 0), buf := [0x80] })].map checkView =
    [⟨.ok, some 32, some true, some (some (.int 0x102))⟩, ⟨.ok, some 8, some true, some (some (.int 7))⟩,
      ⟨.checkOob, none, none, none⟩, ⟨.ok, some 16, some false, some none⟩,
      ⟨.ok, some 4, some true, some (some (.bit true))⟩, ⟨.ok, some 8, some true, some (some (.int (-128)))⟩] := by
  decide +kernel

/-- L2-CHK-13, 14, 16, 19, 24: a NaN, the two zeros, no width, elapsed times. -/
theorem test_check_values :
    [((0x13 : Word), ({ val := .flt .f32 0x7FC00000, buf := [0x7f, 0xc0, 0, 0] } : Operands)),
      (0x13, { val := .flt .f32 0, buf := [0x80, 0, 0, 0] }), (0x13, { val := .str [], cur := 5 }),
      (0x13, { val := .time [0x32, 0x6d, 0x73], elapsed := 2000001 }),
      (0x13, { val := .time [0x78], elapsed := -5 })].map checkView =
    [⟨.ok, some 32, some false, some (some (.flt 0x7FC00000))⟩,
      ⟨.ok, some 32, some true, some (some (.flt 0x80000000))⟩, ⟨.ok, some 5, some true, some (some (.buf []))⟩,
      ⟨.ok, some 0, some false, some (some (.int 2000001))⟩,
      ⟨.ok, some 0, some true, some (some (.int (-5)))⟩] := by decide +kernel

/-- L1-6, L2-HEX-7, L2-HEX-9, L2-HEX-11. -/
theorem test_hexdec :
    [[0x30, 0x78, 0x30, 0x31, 0x20, 0x30, 0x78, 0x30, 0x30, 0x30, 0x32], [0x30, 0x30, 0x78, 0x31],
      [0x30, 0x78, 0x7a, 0x7a], [0x30, 0x78, 0x31, 0x32, 0x67]].map (fun t => answer .reset 0x14 { text := t }) =
    [{ bytes := some [1, 0, 2] }, { bytes := some [1] }, { status := .hex }, { bytes := some [0x12] }] := by
  decide +kernel

/-- L2-DUR-2, 3, 7, 11, 12. -/
theorem test_durparse :
    [[0x35], [0x31, 0x2e, 0x35, 0x73], [0x30, 0x2e, 0x35, 0x6d],
      [0x39, 0x32, 0x32, 0x33, 0x33, 0x37, 0x32, 0x30, 0x33, 0x37, 0x73], [0x31, 0x68, 0x33, 0x30, 0x6d], [0x31, 0x2e]].map
      (fun t => (answer .reset 0x15 { text := t }).dur) =
    [some 5000000000, some 1500000000, some 30000000000, some (-1), some (-1), some (-1)] := by decide +kernel

/-- L2-PACK-1, L2-PACK-7, L2-PACK-2 in registers. -/
theorem test_countbit :
    answer .reset 0x20 { vals := [.bool true, .bool false, .bool true, .int .u8 0xAA, .bool true] } = { n := some 17 } ∧
    answer .reset 0x220 { vals := listL12 } = { n := some 8 } ∧
    answer .reset 0x220 { vals := [.int .u8 1, .int .u16 2, .int .u8 3, .int .u16 4] } = { n := some 4 } := by
  decide +kernel

/-- L2-PACK-1, L2-PACK-10. -/
theorem test_pack8 :
    answer .reset 0x21 { vals := [.bool true, .bool false, .bool true, .int .u8 0xAA, .bool true] } =
      { bytes := some [0x05, 0xaa, 0x01] } ∧
    answer .reset 0x21 { vals := [.rngInt .u16 (some 1) (some 2)] } = { status := .writeNoform } := by decide +kernel

/-- L1-2, L2-PACK-3. -/
theorem test_pack16 :
    answer .reset 0x22 { vals := listL12 } =
      { bytes := some [1, 1, 0, 1, 0, 0, 0, 1, 0, 0, 0, 0, 0, 0, 0, 1] } ∧
    answer .reset 0x22 { vals := [.str [0x61, 0x62, 0x63], .int .u16 0x1234] } =
      { bytes := some [0x61, 0x62, 0x63, 0, 0x12, 0x34] } := by decide +kernel

/-- L2-TPL-1 and P1 step 8: the templates compiled. -/
theorem test_commit_compiles :
    seState.template = ⟨some ⟨[1, 2], 0, [], [3, 4], false⟩, none, none⟩ ∧
    lenState.template = ⟨some ⟨[1, 2], 2, [.crc], [], true⟩, none, none⟩ ∧ lenState.ctrl = 0x100 := by decide +kernel

/-- L2-STF-11 and L2-TPL-15. -/
theorem test_commit_refuses :
    answer (after .reset 0x02 { word := 0x110, pat := 0x10004 }) 0x30 {} = { status := .cfgStaff } ∧
    answer seState 0x30 {} = { status := .locked } := by decide +kernel

/-- L1-4, and P2's DISCARD(1) and E_EOS_INCOMPLETE. -/
theorem test_splitse :
    answer seState 0x440 { buf := [1, 2, 0, 1, 3, 4] } =
      { adv := some 6, frame := some (some [1, 2, 0, 1, 3, 4]), isFinal := some true } ∧
    answer seState 0x40 { buf := [0xaa, 1, 2, 0, 1, 3, 4, 1, 2, 0] } =
      { adv := some 1, frame := some none, isFinal := some false } ∧
    answer seState 0x440 { buf := [1, 2, 0] } = { status := .eosIncomplete } := by decide +kernel

/-- L1-5, L2-SPL-29, L2-SPL-22, P5 step 13. -/
theorem test_splitlen :
    answer lenState 0x41 { buf := [1, 2, 1, 6, 3, 4] } =
      { adv := some 5, frame := some (some [1, 2, 1, 6, 3]), isFinal := some false } ∧
    answer lenState 0x41 { buf := [1, 2, 0xff] } = { adv := some 2, frame := some none, isFinal := some false } ∧
    answer lenState 0x41 { buf := [1, 2, 1, 6] } = { adv := some 0, frame := some none, isFinal := some false } ∧
    answer staffState 0x441 { buf := [1, 2, 2, 2, 0x10, 5, 0x78, 0xdb] } =
      { adv := some 8, frame := some (some [1, 2, 2, 2, 0x10, 5, 0x78, 0xdb]), isFinal := some true } := by
  decide +kernel

/-- L2-STF-4, L2-STF-12. -/
theorem test_stuff :
    answer staffState 0x50 { buf := [2, 0x10] } = { bytes := some [2, 0x10, 0x10] } ∧
    answer .reset 0x50 { buf := [2] } = { status := .notCfg } := by decide +kernel

/-- L2-STF-1, 5, 7. -/
theorem test_unstuff :
    [[1, 2, 0x10, 3], [2, 3], [1, 2]].map (fun b => answer staffState 0x51 { buf := b }) =
    [{ bytes := some [1, 2, 3] }, { bytes := some [2, 3] }, { bytes := some [1, 2] }] := by decide +kernel

/-- L2-SUM-1, 3. -/
theorem test_mod256 :
    answer .reset 0x60 {} = { bytes := some [0] } ∧ answer .reset 0x60 { buf := [1, 2, 1, 6] } = { bytes := some [0x0a] } := by
  decide +kernel

/-- L1-1 in both orders, L2-SUM-5. -/
theorem test_crc16 :
    answer .reset 0x161 { buf := bufL11 } = { bytes := some [0xc0, 0x40] } ∧
    answer .reset 0x061 { buf := bufL11 } = { bytes := some [0x40, 0xc0] } ∧
    answer .reset 0x061 { buf := [0x31, 0x32, 0x33, 0x34, 0x35, 0x36, 0x37, 0x38, 0x39] } =
      { bytes := some [0x4b, 0x37] } := by decide +kernel

/-- R45's sample entries of CRCTAB. -/
theorem test_crctab : [0, 1, 2, 3, 255].map crcTab = [0x0000, 0xC0C1, 0xC181, 0x0140, 0x4040] := by decide +kernel

/-- L2-SUM-10, with P5's CFG_CRC (ALG = 1, CORD = LE). -/
theorem test_chksum : answer staffState 0x62 { buf := bufL11 } = { bytes := some [0xc0, 0x40] } := by decide +kernel

/-- L2-SUM-11, 12. -/
theorem test_calclen :
    answer lenState 0x63 { buf := [6] } = { n := some 1 } ∧
    answer lenState 0x63 { buf := List.replicate 256 0 } = { status := .lenOverflow } ∧
    answer lenState 0x63 { buf := List.replicate 255 0 } = { n := some 255 } := by decide +kernel

/-- P5 step 11, and L2-SUM-14's rule on P5's list. -/
theorem test_calccrc :
    answer staffState 0x64 { buf := [2, 5], lenval := 2 } = { bytes := some [0x78, 0xdb] } ∧
    answer staffState 0x64 { buf := [2, 5], lenval := 256 } = { status := .operand } := by decide +kernel

/-- L2-SUM-16, P5 step 12, L2-SUM-22. -/
theorem test_build :
    answer lenState 0x65 { buf := [6] } = { bytes := some [1, 2, 1, 6, 6] } ∧
    answer staffState 0x65 { buf := [2, 5] } = { bytes := some [1, 2, 2, 2, 0x10, 5, 0x78, 0xdb] } ∧
    answer lenState 0x865 { buf := [6] } = { status := .notCfg } := by decide +kernel

/-- P1 steps 11 and 13. -/
theorem test_verify :
    answer lenState 0x66 { buf := [6], lenval := 1, buf2 := [6] } =
      { report := some ⟨true, "crc", .exactly (.buf [6]), some (.buf [6])⟩ } ∧
    answer lenState 0x66 { buf := [6], lenval := 1, buf2 := [3] } =
      { report := some ⟨false, "crc", .exactly (.buf [6]), some (.buf [3])⟩ } := by decide +kernel

/-- R540: the loop issues its first SPLIT, and reads the transport after a NEED (P2, steps 1 and 3). -/
theorem test_host_loop :
    (seState.startLoop .r [] {}).hostStep.pending = [⟨0x40, {}⟩] ∧
    ((seState.startLoop .r [.endOfStream] {}).loop.onResult SplitOutcome.need.result).onRead.eos = true := by
  decide +kernel

/-- P1's frame, one field to check behind the length byte and one threaded behind it, and VERIFY. -/
def delivering : ReadLoop :=
  (lenState.startLoop .r [] { fields := [⟨.int .u8 6, .be, .g8, some 24⟩, ⟨.int .u8 6, .be, .g8, none⟩], verifies := true }
    ).loop.onResult (SplitOutcome.frame 5 [1, 2, 1, 6, 6] true).result

/-- R540, R963: the loop checks a delivered frame field by field, threading the cursor, then verifies and stops. -/
theorem test_host_delivery :
    let s := { lenState with loop := delivering }.hostStep
    let t := after s 0x13 s.operands
    let u := t.hostStep.hostStep
    s.operands = { val := .int .u8 6, buf := [1, 2, 1, 6, 6], cur := 24 } ∧
      u.operands = { val := .int .u8 6, buf := [1, 2, 1, 6, 6], cur := 32 } ∧ u.loop.verdicts = [t.result] ∧
      (u.loop.endDelivery (delivering.tests.delivery [1, 2, 1, 6, 6] { adv := some 5, isFinal := some true })).phase =
        .stopped .final := by decide +kernel

/-- R811, R952: a loading issues RESET first; STATUS must answer 0; COMMIT's fatal status is not gone past but its code
(P3: E_CFG_NO_START, 0x23) is read with STATUS. -/
theorem test_host_loading :
    (Surface.load ⟨[], none, none, none, ⟨[], [], []⟩, ⟨[], [], []⟩, ⟨[], [], []⟩, 16⟩ .reset).toOption.map
      (fun s => s.hostStep.pending) = some [⟨0x0A, {}⟩] ∧
    (State.reset.loop.onBoot [⟨0x30, {}⟩] { stat := some 0 }).phase = .boot [⟨0x30, {}⟩] ∧
    (State.reset.loop.onBoot [] { stat := some 0x100 }).phase = .stopped (.notFresh 0x100) ∧
    (State.reset.loop.onBoot [⟨0x08, {}⟩] { status := .cfgNoStart }).phase = .refused ∧
    faultState.codeIssue.pending = [⟨0x09, {}⟩] ∧
    (faultState.loop.onCode (answer faultState 0x09 {})).phase = .stopped (.badConfig 0x23) := by decide +kernel

/-- R811: a countBytes the source names, one it does not that fits the field, and one that does not (assumption log
14); R110, R111: extra pairs and suffixes that a pseudo-command's form does not have (assumption log 17). -/
theorem test_host_refusals :
    ([2, 3, 16].map fun n => (Surface.lenCommands ⟨[], none, none, some ⟨false, false, n⟩, ⟨[], [], []⟩, ⟨[], [], []⟩,
        ⟨[], [], []⟩, 16⟩).toOption) =
      [some [⟨0x04, { word := 2 }⟩], some [⟨0x04, { word := 3 }⟩], none] ∧
    ["LOADSTAFF.LE esc=0x10, pattern=[02]", "LOADSTAFF esc=0x10, pattern=[02], k=1", "SPLIT.R buf=[01], cur=0"].map
      (fun t => assembleLine lenState t.toList) = [none, none, none] := by decide +kernel

/-- Log 17's choices: the last of two pairs of one field, an elapsed past the signed range, a byte of one digit. -/
theorem test_assemble_choices :
    ["CHECK k=1, k=2", "CHECK elapsed=-0x8000000000000000", "CHECK elapsed=0x8000000000000000", "STUFF buf=[7 0007 100]",
      "STUFF buf=[7 0007]"].map (fun t => assembleLine lenState t.toList) =
    [some ⟨0x13, { k := 2 }⟩, some ⟨0x13, { elapsed := 0x8000000000000000 }⟩, none, none,
      some ⟨0x50, { buf := [7, 7] }⟩] := by decide +kernel

/-- The host places one word where the next step takes it, and changes no register. -/
theorem test_withFetchWord :
    (State.reset.withFetchWord 32 0x09).pending = [⟨0x09, {}⟩] ∧
      (State.reset.withFetchWord 32 0x09).ctrl = State.reset.ctrl := by decide +kernel

/-! ### Hypotheses met: for each statement, a state and operands that meet all its hypotheses together -/

/-- An outcome that is a next state with this property. -/
def nextWith (o : Out) (p : State → Bool) : Bool :=
  match o with
  | .next t => p t
  | _ => false

theorem exists_next {o : Out} {p : State → Bool} (h : nextWith o p = true) : ∃ t, o = .next t ∧ p t = true := by
  cases o <;> simp_all [nextWith]

/-- The command of a state that has one issued. -/
def ready (o : Operands) : State := issued .reset 0 o

/-- Before P3's COMMIT. -/
def beforeFault : State :=
  loaded [(0x01, { k := 0, buf := [1, 2] }), (0x05, { tokens := [2, 0x80] }), (0x08, { word := 16 })]

/-- Before the COMMIT of `seState`. -/
def beforeSe : State :=
  loaded [(0x01, { k := 0, buf := [1, 2] }), (0x01, { k := 1, buf := [3, 4] }), (0x05, { tokens := [0x80, 2, 0x81] }),
    (0x08, { word := 16 })]

/-- Before a COMMIT of a length-driven format with one covered token and two suffix tokens. -/
def beforeLen : State :=
  loaded [(0x01, { k := 0, buf := [1, 2] }), (0x01, { k := 1, buf := [3, 4] }), (0x04, { word := 8 }),
    (0x05, { tokens := [0x80, 1, 2, 0x81, 3] }), (0x07, { tokens := [2] }), (0x08, { word := 1 })]

theorem test_hyp_IllegalWordsRaiseIllegal :
    (issued .reset 0x1840 {}).pending = ⟨0x1840, {}⟩ :: [] ∧ ¬ LegalWord 0x1840 ∧ LegalWord 0x1440 := by decide

theorem test_hyp_StepRunsDecodedCommand :
    (issued .reset 0x1065 {}).pending = ⟨0x1065, {}⟩ :: [] ∧ decode 0x1065 = .ok (.build .e) := ⟨rfl, rfl⟩

theorem test_hyp_StepKeepsConsistent :
    (issued lenState 0x09 {}).Consistent ∧ ∃ t, step (issued lenState 0x09 {}) = .next t ∧ true = true :=
  ⟨by decide +kernel, exists_next (p := fun _ => true) (by decide +kernel)⟩

theorem test_hyp_ConsistentTemplatesWellFormed :
    (lenState.Consistent ∧ lenState.template.get .r = some ⟨[1, 2], 2, [.crc], [], true⟩) ∧
    (seState.Consistent ∧ seState.template.get .r = some ⟨[1, 2], 0, [], [3, 4], false⟩) ∧
    staffState.Consistent ∧ faultState.Consistent := by decide +kernel

theorem test_hyp_CommittedRegistersAreLocked :
    (issued lenState 0x08 { word := 32 }).committed = true ∧
      ∃ t, step (issued lenState 0x08 { word := 32 }) = .next t ∧ true = true :=
  ⟨by decide +kernel, exists_next (p := fun _ => true) (by decide +kernel)⟩

theorem test_hyp_OnlyCommitRaisesFatal :
    ∃ t, exec .commit beforeFault = .next t ∧ t.result.status.fatal = true := exists_next (by decide +kernel)

theorem test_hyp_FailingCommandIsPrecise :
    ((issued .reset 0x50 {}).pending = [⟨0x50, {}⟩] ∧ ∃ t, step (issued .reset 0x50 {}) = .next t ∧
      decide (t.result.status ≠ .ok ∧ t.result.status.fatal = false) = true) ∧
    ((issued beforeFault 0x30 {}).pending = [⟨0x30, {}⟩] ∧ ∃ t, step (issued beforeFault 0x30 {}) = .next t ∧
      decide (t.result.status ≠ .ok ∧ t.result.status.fatal = true) = true) ∧
    ∃ t, step (issued .reset 0x2009 {}) = .next t ∧ decide (t.result.status = .illegal) = true :=
  ⟨⟨rfl, exists_next (by decide +kernel)⟩, ⟨rfl, exists_next (by decide +kernel)⟩, exists_next (by decide +kernel)⟩

theorem test_hyp_FatalFaultIsSticky :
    (∃ t, exec .commit beforeFault = .next t ∧ t.result.status.fatal = true) ∧ faultState.faulted = true ∧
      Instr.mod256 ≠ .status ∧ Instr.mod256 ≠ .reset :=
  ⟨exists_next (by decide +kernel), by decide +kernel⟩

theorem test_hyp_GatesComeFirst :
    gateStatus faultState (.setfmt .r) = some .faulted ∧ gateStatus lenState .setmax = some .locked ∧
    gateStatus .reset .stuff = some .notCfg ∧ gateStatus lenState (.build .w) = some .notCfg ∧
    gateStatus lenState (.splitse false .r) = some .strategy ∧ gateStatus seState (.splitlen true .r) = some .strategy ∧
    gateStatus faultState .reset = none ∧ gateStatus lenState (.splitlen false .r) = none := by decide +kernel

theorem test_hyp_OtherCommandsKeepRegisters :
    isConfiguring .mod256 = false ∧ Instr.mod256 ≠ .reset ∧ ∃ t, exec .mod256 .reset = .next t ∧ true = true :=
  ⟨rfl, by decide, exists_next (p := fun _ => true) (by decide +kernel)⟩

theorem test_hyp_CommandsSeeRegistersAndOperandsOnly :
    lenState.SameRegisters { lenState with result := { n := some 7 } } ∧
      lenState.operands = { lenState with result := { n := some 7 } }.operands ∧
      ∃ t, exec .stuff lenState = .next t ∧ true = true :=
  ⟨by decide +kernel, by decide +kernel, exists_next (p := fun _ => true) (by decide +kernel)⟩

theorem test_hyp_SetconstWritesItsSlot :
    ((ready { k := 127 }).faulted = false ∧ (ready { k := 127 }).committed = false ∧ (ready { k := 127 }).operands.k ≤ 127) ∧
    (ready { k := 128 }).faulted = false ∧ (ready { k := 128 }).committed = false ∧
      127 < (ready { k := 128 }).operands.k := by decide +kernel

theorem test_hyp_SetWordCommandsWriteRegisters :
    (ready { word := 0x1FF }).faulted = false ∧ (ready { word := 0x1FF }).committed = false ∧
      (ready { word := 0x200 }).faulted = false ∧ (ready { word := 0x200 }).committed = false := by decide +kernel

theorem test_hyp_SetListCommandsWriteLists :
    (ready { tokens := [0x80, 2] }).faulted = false ∧ (ready { tokens := [0x80, 2] }).committed = false := by decide +kernel

/-- TypeResolvesByPresence, PackersEmitWrittenBytesInOrder, Mod256IsTheByteSum, Crc16ResidueIsZero: only FAULTED = 0. -/
theorem test_hyp_unfaulted : State.reset.faulted = false ∧ lenState.faulted = false := by decide +kernel

theorem test_hyp_LenbitMatchesWrittenLength :
    (ready {}).faulted = false ∧ writeValue .be (.int .i64 (-1)) = .ok (List.replicate 8 0xff) ∧
    (ready { val := .rngInt .u16 none none }).operands.val = .rngInt .u16 none none ∧
    writeValue .le (.int .u16 0) = .ok [0, 0] ∧ (ready { val := .rngFlt .f32 none none }).operands.val = .rngFlt .f32 none none ∧
    writeValue .le (.flt .f32 0) = .ok [0, 0, 0, 0] ∧ (ready { val := .time [] }).operands.val = .time [] ∧
    (ready { val := .err [] }).operands.val = .err [] ∧ (ready {}).operands.val = .empty ∧
    hexDec [0x7a, 0x7a] = .error .hex := ⟨rfl, rfl, rfl, rfl, rfl, rfl, rfl, rfl, rfl, rfl⟩

theorem test_hyp_WriteReadsBack :
    ((ready {}).faulted = false ∧ IntKind.inRange .i8 (-128) = true ∧ IntKind.inRange .u64 0xFFFFFFFFFFFFFFFF = true) ∧
    FltKind.inRange .f32 0xFFFFFFFF = true ∧ hexDec [0x30, 0x78, 0x30, 0x61] = .ok [0x0a] := ⟨by decide, by decide, rfl⟩

theorem test_hyp_WriteRefusalsAreNotSticky :
    (ready {}).faulted = false ∧ (ready {}).operands.val = .empty ∧ hexDec [0x7a, 0x7a] = .error .hex := ⟨rfl, rfl, rfl⟩

theorem test_hyp_CheckPassesOnWrittenBytes :
    let s := ready { val := .int .i16 (-2), buf := [0xff, 0xfe] }
    s.faulted = false ∧ s.operands.val.wf = true ∧ writeValue .be s.operands.val = .ok [0xff, 0xfe] ∧
      lenBit s.operands.val = .ok 16 ∧ s.operands.buf = [0xff, 0xfe] ∧ s.operands.cur = 0 ∧
      (Grid.g16 = .g8 ∨ Order.be = .le ∨ 16 ≤ 16) ∧
      ∀ k b, s.operands.val = .flt k b → ¬ NanPattern k b :=
  ⟨rfl, rfl, rfl, rfl, rfl, rfl, by decide, fun _ _ h => by cases h⟩

theorem test_hyp_CheckPassesOnWrittenFloat :
    let s := ready { val := .flt .f32 0x7F800000, buf := [0, 0, 0x80, 0x7f] }
    s.operands.val.wf = true ∧ writeValue .le s.operands.val = .ok [0, 0, 0x80, 0x7f] ∧
      ∀ k b, s.operands.val = .flt k b → ¬ NanPattern k b :=
  ⟨rfl, rfl, fun _ _ h => by cases h; decide⟩

/-- A string checked against other bytes of its length, at a cursor that rounds up; and the last bit of a buffer. -/
theorem test_hyp_CheckFailsOnOtherBytes :
    let s := ready { val := .str [1, 2, 3], buf := [0, 0, 0] ++ [4, 5, 6] ++ [7], cur := 1 }
    (s.operands.val.wf = true ∧ sourceKey s.operands.val = sourceKey (.str [4, 5, 6]) ∧
      writeValue .be s.operands.val = .ok [1, 2, 3] ∧ writeValue .be (.str [4, 5, 6]) = .ok [4, 5, 6] ∧
      lenBit s.operands.val = .ok 24 ∧ lenBit (.str [4, 5, 6]) = .ok 24) ∧
    (8 ≤ 24 ∧ Unmirrored .g16 .be 24 ∧ RoundsTo s.operands.cur 24 (8 * ([0, 0, 0] : Buffer).length)) ∧
    (ready { val := .bool true, buf := [0x80], cur := 7 }).operands.cur < 8 * 1 := by
  exact ⟨⟨rfl, rfl, rfl, rfl, rfl, rfl⟩, by decide +kernel, by decide⟩

theorem test_hyp_CheckAdvancesRoundedCursor :
    lenBit (ready { val := .int .u16 0x102, buf := [0, 0, 1, 2], cur := 8 }).operands.val = .ok 16 ∧ 0 < 16 ∧
      ∃ t, exec (.check .be .g8) (ready { val := .int .u16 0x102, buf := [0, 0, 1, 2], cur := 8 }) = .next t ∧
        decide (t.result.status = .ok) = true :=
  ⟨rfl, by decide, exists_next (by decide +kernel)⟩

theorem test_hyp_CheckReadsOnlyItsBytes :
    let o : Operands := { val := .int .u8 7, buf := [0, 7] }
    lenBit o.val = .ok 8 ∧ 0 < 8 ∧ [9, 7].length = o.buf.length ∧ (place 8 o.cur (gridBits .g16) .be).start = 1 ∧
      (place 8 o.cur (gridBits .g16) .be).stop = 2 ∧ ([9, 7] : Buffer)[1]? = o.buf[1]? := ⟨rfl, by decide⟩

theorem test_hyp_CheckMirrorsSubWordFields :
    let s := ready { val := .int .u8 7, buf := [0, 7, 1, 2], cur := 24 }
    let b := ready { val := .bool true, buf := [0, 7, 1, 2], cur := 31 }
    (s.faulted = false ∧ lenBit s.operands.val = .ok 8 ∧ RoundsTo s.operands.cur 8 (8 * 3) ∧
      3 < s.operands.buf.length ∧ otherByte 3 = 2) ∧
    (b.operands.val = .bool true ∧ 7 < 8 ∧ b.operands.cur = 8 * 3 + 7 ∧ otherByte 3 < b.operands.buf.length) ∧
    (lenBit (.bytes [0x37, 0x66]) = .ok 8 ∧ lenBit (.rngInt .i8 none none) = .ok 8 ∧ lenBit (.str [7]) = .ok 8) ∧
    let f := ready { val := .flt .f32 0, buf := [0, 7, 1, 2, 0x3f, 0x80, 0, 0], cur := 1 }
    (f.faulted = false ∧ lenBit f.operands.val = .ok 32 ∧ gridBits .g16 ≤ 32 ∧ RoundsTo f.operands.cur 32 32 ∧
      32 + 32 ≤ 8 * f.operands.buf.length) :=
  ⟨by decide +kernel, by decide +kernel, ⟨rfl, rfl, rfl⟩, rfl, rfl, by decide +kernel⟩

theorem test_hyp_CheckNeverReadsPastTheBuffer :
    let s := ready { val := .int .u16 1, buf := [1], cur := 0 }
    let m := ready { val := .int .u8 7, buf := [7], cur := 0 }
    (s.faulted = false ∧ lenBit s.operands.val = .ok 16 ∧ 8 * s.operands.buf.length < 0 + 16) ∧
    (lenBit m.operands.val = .ok 8 ∧ 8 ∣ 0 ∧ m.operands.cur ≤ 0 ∧ 0 < m.operands.cur + 8 ∧
      0 + 8 ≤ 8 * m.operands.buf.length ∧ m.operands.buf.length ≤ otherByte (0 / 8) ∧
      m.operands.buf.length < (place 8 0 (gridBits .g16) .be).stop) :=
  ⟨⟨rfl, rfl, by decide⟩, rfl, by decide⟩

theorem test_hyp_CheckOfUnreadVariants :
    (ready {}).faulted = false ∧ (ready {}).operands.val = .empty ∧ (ready { val := .time [] }).operands.val = .time [] ∧
      (ready { val := .err [0x78] }).operands.val = .err [0x78] ∧
      (ready { val := .str [], buf := [1], cur := 9 }).operands.val = .str [] ∧
      ((ready { val := .bytes [0x30] }).operands.val = .bytes [0x30] ∧ hexDec [0x30] = .ok []) ∧
      hexDec [0x7a, 0x7a] = .error .hex := by
  refine ⟨by decide +kernel, rfl, rfl, rfl, rfl, ⟨rfl, rfl⟩, rfl⟩

theorem test_hyp_CheckRangeIsInclusive :
    let s := ready { val := .rngInt .i16 (some (-2)) none, buf := [9, 9, 0xff, 0xfe, 1], cur := 1 }
    let f := ready { val := .rngFlt .f32 (some 0) (some 0x3F800000), buf := [0x7f, 0xc0, 0, 0] }
    (s.faulted = false ∧ s.operands.val = .rngInt .i16 (some (-2)) none ∧ IntKind.inRange .i16 (-2) = true ∧
      Unmirrored .g16 .be (IntKind.width .i16) ∧
      s.operands.buf = [9, 9] ++ bytesOf .be (IntKind.width .i16 / 8) (-2) ++ [1] ∧
      RoundsTo s.operands.cur (IntKind.width .i16) (8 * ([9, 9] : Buffer).length)) ∧
    (f.operands.val = .rngFlt .f32 (some 0) (some 0x3F800000) ∧ FltKind.inRange .f32 0x7FC00000 = true ∧
      f.operands.buf = [] ++ bytesOf .be (FltKind.width .f32 / 8) 0x7FC00000 ++ [] ∧
      RoundsTo f.operands.cur (FltKind.width .f32) (8 * ([] : Buffer).length)) := by decide +kernel

theorem test_hyp_FloatComparisonIsSignMagnitude :
    (FltKind.inRange .f64 0x7FF0000000000001 = true ∧ NanPattern .f64 0x7FF0000000000001) ∧
    FltKind.inRange .f32 0x80000000 = true ∧ ¬ NanPattern .f32 0x80000000 ∧ ¬ NanPattern .f32 0x7F800000 := by decide

theorem test_hyp_HexdecReadsHexLiterals :
    let s := ready { text := [0x30, 0x58, 0x41, 0x46, 0x20] }
    s.faulted = false ∧ s.operands.text = hexLiteral true [0xaf] := by decide +kernel

/-- R250's corner cases as texts of digits and fillers: "0x0002", "0102", "00x1", "0x12 3". -/
theorem test_hyp_HexdecReadsDigitsAndFillers :
    HexText [0, 0, 0, 2] (ready { text := [0x30, 0x78, 0x30, 0x30, 0x30, 0x32] }).operands.text ∧
    HexText [0, 1, 0, 2] [0x30, 0x31, 0x30, 0x32] ∧ HexText [0, 1] [0x30, 0x30, 0x78, 0x31] ∧
    HexText [1, 2, 3] [0x30, 0x78, 0x31, 0x32, 0x20, 0x33] := by
  have d (n : Nat) {ds t} (h : n < 16) := @HexText.digit ds t n false h
  have x {ds t} := @HexText.filler ds t [0x30, 0x78] (by decide)
  have w {ds t} := @HexText.filler ds t [0x20] (by decide)
  exact ⟨x (d 0 (by decide) (d 0 (by decide) (d 0 (by decide) (d 2 (by decide) .nil)))),
    d 0 (by decide) (d 1 (by decide) (d 0 (by decide) (d 2 (by decide) .nil))),
    d 0 (by decide) (x (d 1 (by decide) .nil)),
    x (d 1 (by decide) (d 2 (by decide) (w (d 3 (by decide) .nil))))⟩

/-- "0x12g", whose last character is left over; "0xzz" and "0x1 0xg ", whose pairs are bad, the second with fillers in
it and behind it (L2-HEX-9 to 11). -/
theorem test_hyp_HexdecLeftoversAndBadPairs :
    (HexText [1, 2] [0x30, 0x78, 0x31, 0x32] ∧
      (ready { text := [0x30, 0x78, 0x31, 0x32, 0x67] }).operands.text = [0x30, 0x78, 0x31, 0x32] ++ [0x67] ++ [] ∧
      ¬ (([0x30, 0x78, 0x31, 0x32] : Buffer).getLast? = some 0x30 ∧ IsX 0x67)) ∧
    (HexText [] [0x30, 0x78] ∧ HexText [] [] ∧ HexText [] [0x20, 0x30, 0x78] ∧
      (ready { text := [0x30, 0x78, 0x7A, 0x7A] }).operands.text = [0x30, 0x78] ++ [0x7A] ++ [] ++ [0x7A] ++ [] ∧
      (ready { text := [0x30, 0x78, 0x31, 0x20, 0x30, 0x78, 0x67, 0x20] }).operands.text =
        [0x30, 0x78] ++ [0x31] ++ [0x20, 0x30, 0x78] ++ [0x67] ++ [0x20]) ∧
    [((0x7A, [], 0x7A, []) : Byte × Buffer × Byte × Buffer), (0x31, [0x20, 0x30, 0x78], 0x67, [0x20])].map (fun x =>
      decide (¬ (HexChar x.1 ∧ HexChar x.2.2.1) ∧ x.1 ≠ 0x20 ∧ x.2.2.1 ≠ 0x20 ∧
        ¬ (([0x30, 0x78] : Buffer).getLast? = some 0x30 ∧ IsX x.1) ∧ ¬ (x.1 = 0x30 ∧ x.2.1 = [] ∧ IsX x.2.2.1) ∧
        ¬ (x.2.2.1 = 0x30 ∧ ∃ c ∈ x.2.2.2.head?, IsX c))) = [true, true] := by
  have d (n : Nat) {ds t} (h : n < 16) := @HexText.digit ds t n false h
  have x {ds t} := @HexText.filler ds t [0x30, 0x78] (by decide)
  have w {ds t} := @HexText.filler ds t [0x20] (by decide)
  exact ⟨⟨x (d 1 (by decide) (d 2 (by decide) .nil)), rfl, by decide⟩, ⟨x .nil, .nil, w (x .nil), rfl, rfl⟩, by decide⟩

theorem test_hyp_DurparseReadsDurations :
    ((ready { text := [0x31, 0x2e, 0x35, 0x6e, 0x73] }).operands.text =
        asciiDigits [1] ++ [0x2E] ++ asciiDigits [5] ++ [0x6E, 0x73] ∧ 1 * 10 ^ 1 ≤ digitsValue ([1] ++ [5]) * 1 ∧
        digitsValue ([1] ++ [5]) * 1 < (1 + 1) * 10 ^ 1) ∧
    (([0x6D], 6 * 10 ^ 10) ∈ durationUnits ∧ (ready { text := [0x37, 0x6D] }).operands.text = asciiDigits [7] ++ [0x6D]) ∧
    (ready { text := [0x35] }).operands.text = asciiDigits [5] ∧ (ready { text := [0x6D] }).operands.text = [0x6D] ∧
    (ready {}).operands.text = [] := by decide +kernel

/-- A text that ends in a point is outside the grammar. -/
theorem test_hyp_DurparseRefusesOtherTexts : ¬ DurationText (ready { text := [0x31, 0x2E] }).operands.text := by
  change ¬ DurationText [0x31, 0x2E]
  have digit : ∀ (ds : List (Fin 10)), (0x2E : Byte) ∉ asciiDigits ds := by
    intro ds h
    obtain ⟨d, -, h⟩ := List.mem_map.mp h
    revert h; revert d; decide
  rintro (h | ⟨ds, -, h⟩ | ⟨u, hu, h⟩)
  · cases h
  · exact digit ds (h ▸ by simp)
  · have last : ∀ a : Buffer, [0x31, 0x2E] ≠ a ++ u.1 := by
      intro a e
      have : ([0x31, 0x2E] : Buffer).getLast? = u.1.getLast? := by
        rw [e]; fin_cases hu <;> simp
      revert this; fin_cases hu <;> decide
    rcases h with h | ⟨ds, -, h | ⟨fs, h⟩⟩
    · exact last [] h
    · exact last _ h
    · exact last _ h

theorem test_hyp_PackedLengthsAgreeWithCount :
    (ready { vals := listL12 }).faulted = false ∧
      ∀ v ∈ (ready { vals := listL12 }).operands.vals, ∃ bs, writeValue .be v = .ok bs :=
  ⟨rfl, by simp [ready, issued, State.operands, listL12, writeValue]⟩

/-- Values COUNTBIT counts that no packer takes, and a counted value behind booleans. -/
theorem test_hyp_CountbitCountsEveryKind :
    answer .reset 0x220 { vals := [.bool true, .rngInt .u16 none none, .empty, .time [], .err [0x78]] } = { n := some 2 } ∧
    answer .reset 0x20 { vals := [.bool true, .bool false] } = { n := some 2 } ∧ lenBit (.rngFlt .f64 none none) = .ok 64 ∧
    RoundsTo 2 8 8 ∧
    answer .reset 0x20 { vals := [.bytes [0x7a, 0x7a]] } = { status := .hex } := by
  refine ⟨by decide +kernel, by decide +kernel, rfl, by decide, by decide +kernel⟩

theorem test_hyp_PackersEmitWrittenBytesInOrder :
    (ready { vals := [.bool true, .bool false] }).operands.vals = [true, false].map .bool ∧
    (writeValue .be (.int .u16 0x1234) = .ok [0x12, 0x34] ∧ 2 ≤ ([0x12, 0x34] : Buffer).length) ∧
    (answer .reset 0x21 { vals := [.bool true] } = { bytes := some [1] } ∧
      answer .reset 0x22 { vals := [.bool true] } = { bytes := some [1, 0] }) ∧
    (writeValue .be (.bool true) = .ok [1] ∧ writeValue .be (.str []) = .ok [] ∧
      writeValue .be (.time []) = .error .writeNoform) :=
  ⟨by decide, ⟨rfl, by decide⟩, ⟨by decide +kernel, by decide +kernel⟩, rfl, rfl, rfl⟩

theorem test_hyp_CommitCompilesStartEndFormat :
    (beforeSe.faulted = false ∧ beforeSe.committed = false ∧ beforeSe.staffEn = false ∧ beforeSe.alg < 2 ∧
      0 < beforeSe.maxFrame) ∧
    (beforeSe.fmt = onlyFor .r (constCodes [0] ++ [dataCode] ++ constCodes [1]) ∧ beforeSe.lenList = ⟨[], [], []⟩ ∧
      beforeSe.crcList = ⟨[], [], []⟩) ∧
    (([dataCode] : List Byte) ≠ [] ∧ [dataCode].Nodup ∧ (∀ m ∈ [dataCode], m = dataCode ∨ m = crcCode)) ∧
    (Declared beforeSe [0] ∧ Declared beforeSe [1] ∧ constConcat beforeSe [0] ≠ [] ∧ constConcat beforeSe [1] ≠ []) := by
  decide +kernel

theorem test_hyp_CommitCompilesLengthDrivenFormat :
    (beforeLen.faulted = false ∧ beforeLen.committed = false ∧ beforeLen.staffEn = false ∧ beforeLen.alg < 2 ∧
      0 < beforeLen.maxFrame ∧ beforeLen.lenWidth = 8) ∧
    (beforeLen.fmt = onlyFor .r (constCodes [0] ++ [lenCode, dataCode] ++ [.const 1, .crc].map suffixCode) ∧
      beforeLen.lenList = onlyFor .r [dataCode] ∧ beforeLen.crcList = ⟨[], [], []⟩) ∧
    (SuffixToken.data ∉ [SuffixToken.const 1, .crc] ∧ [SuffixToken.const 1, .crc].count .crc ≤ 1 ∧
      Declared beforeLen [0] ∧ beforeLen.consts[1].valid = true ∧ constConcat beforeLen [0] ≠ []) := by decide +kernel

/-- A configuration with CONST 0 = 01 02, CONST 1 = 03 04, CONST 2 = none, this FMT[R], LENLIST[R], CRCLIST[R]. -/
def withLists (fmt len crc : List Byte) : State :=
  let s := loaded [(0x01, { k := 0, buf := [1, 2] }), (0x01, { k := 1, buf := [3, 4] }), (0x04, { word := 1 }),
    (0x08, { word := 16 })]
  { s with fmt := ⟨fmt, [], []⟩, lenList := ⟨len, [], []⟩, crcList := ⟨crc, [], []⟩ }

/-- R431's refused compilations, R420's checks, and R430's order where two errors meet: each of the 13 statuses. -/
theorem test_hyp_CommitReportsTheFirstError :
    [withLists [0x80, 4] [] [], withLists [0x80, 2] [1] [], withLists [0x80, 2] [] [3], withLists [0x82, 2, 2] [] [],
      withLists [2, 0x80, 0x81] [] [], withLists [0x80, 2] [] [], withLists [0x80, 2, 1] [] [],
      withLists [0x80, 1, 1] [] [], withLists [0x80, 2, 2, 0x81] [] [], withLists [0x80, 1, 2] [] [],
      withLists [0x80, 1, 3, 2] [2] [], { withLists [0x80, 2, 0x81] [] [] with cfgCrc := 2 },
      { withLists [0x80, 1, 2] [2] [] with cfgLen := 3 }, { withLists [0x80, 2, 0x81] [] [] with cfgMax := 0 },
      { withLists [0x80, 2, 0x81] [] [] with cfgStaff := 0x110, cfgPat := 0x10004 },
      { withLists [0x80, 1, 2, 3] [2, 3] [1] with cfgStaff := 0x110, cfgPat := 4, cfgLen := 0x21, cfgCrc := 8 },
      withLists [0x80, 1, 2, 3] [2, 3] [2]].map commitFault =
    [some .cfgToken, some .cfgToken, some .cfgToken, some .cfgUnknownConst, some .cfgNoStart, some .cfgAmbiguousEnd,
      some .cfgMarkerOrder, some .cfgMarkerOrder, some .cfgDupMarker, some .cfgSuffixData, some .cfgCoverOrder,
      some .cfgAlg, some .cfgLenw, some .cfgMax, some .cfgStaff, some .cfgCircular, none] ∧
    (withLists [] [] []).faulted = false ∧ (withLists [] [] []).committed = false := by decide +kernel

/-- A host with only COMMIT left to issue. -/
def committing (s : State) : State := { s with loop := { s.loop with phase := .boot [⟨0x30, {}⟩] }, pending := [] }

theorem test_hyp_CommitReportsToTheLoadingHost :
    encode .commit = 0x30 ∧
    [beforeFault, beforeSe].map (fun s => (commitFault (committing s), (committing s).faulted, (committing s).committed)) =
      [(some .cfgNoStart, false, false), (none, false, false)] ∧
    [beforeFault, beforeSe].map (fun s => ((committing s).pending, (committing s).loop.phase)) =
      [([], .boot [⟨0x30, {}⟩]), ([], .boot [⟨0x30, {}⟩])] := by decide +kernel

/-- R431's templates: a covered checksum, a suffix of a checksum and a constant, and a constant between markers. -/
theorem test_templates :
    [withLists [0x80, 1, 2, 3] [2, 3] [], withLists [0x80, 1, 2, 3, 0x81] [2] [],
      withLists [0x80, 2, 0x81, 3, 0x80] [] []].map (fun s => templateOf s .r) =
    [some ⟨[1, 2], 2, [], [], true⟩, some ⟨[1, 2], 2, [.crc, .const 1], [], true⟩,
      some ⟨[1, 2], 0, [], [3, 4, 1, 2], false⟩] := by decide +kernel

theorem test_hyp_CommitReportsMisplacedLength :
    let s := loaded [(0x01, { k := 0, buf := [1, 2] }), (0x05, { tokens := [0x80, 2, 1] })]
    s.faulted = false ∧ s.committed = false ∧
      s.fmt = onlyFor .r (constCodes [0] ++ [dataCode] ++ constCodes [] ++ [lenCode] ++ constCodes []) ∧
      s.lenList = ⟨[], [], []⟩ ∧ s.crcList = ⟨[], [], []⟩ ∧ Declared s [0] ∧ Declared s [] := by decide +kernel

theorem test_hyp_CommitWithoutFormats :
    let s := loaded [(0x02, { word := 0x110, pat := 0x10004 })]
    (s.faulted = false ∧ s.committed = false ∧ s.fmt = ⟨[], [], []⟩ ∧ s.lenList = ⟨[], [], []⟩ ∧
      s.crcList = ⟨[], [], []⟩) ∧
    (s.staffEn = true ∧ s.cfgPat.getLsbD s.esc.toNat = true ∧ (2 : Byte) ≠ s.esc ∧
      s.cfgPat.getLsbD (2 : Byte).toNat = true) ∧ 2 ≤ (loaded [(0x03, { word := 3 })]).alg := by decide +kernel

theorem test_hyp_SplittersFindTheStart :
    (seState.faulted = false ∧ seState.committed = true ∧
      seState.template.get .r = some ⟨[1, 2], 0, [], [3, 4], false⟩) ∧
    (issued seState 0x40 {}).operands.buf = [] ∧
    (∀ j, ¬ ([1, 2] : Buffer) <+: (issued seState 0x40 { buf := [1] }).operands.buf.drop j) ∧
    (0 < 1 ∧ ([1, 2] : Buffer) <+: (issued seState 0x40 { buf := [1, 1, 2] }).operands.buf.drop 1 ∧
      ∀ j, j < 1 → ¬ ([1, 2] : Buffer) <+: (issued seState 0x40 { buf := [1, 1, 2] }).operands.buf.drop j) :=
  ⟨by decide +kernel, rfl, fun j => by cases j <;> simp [issued, State.operands], by decide⟩

theorem test_hyp_SplitseCutsAtTheEndConstant :
    let t : Template := ⟨[1, 2], 0, [], [3, 4], false⟩
    (seState.faulted = false ∧ seState.committed = true ∧ seState.template.get .r = some t) ∧
    (t.start <+: [1, 2, 3, 4] ∧ EndsAt t [1, 2, 3, 4] 4 ∧ 4 ≤ seState.maxFrame ∧
      ∀ m, m < 4 → ¬ EndsAt t [1, 2, 3, 4] m) ∧
    (t.start <+: [1, 2, 3] ∧ ∀ n, n < seState.maxFrame + 1 → ¬ EndsAt t [1, 2, 3] n) := by decide +kernel

theorem test_hyp_SplitlenMeasuresTheFrame :
    let t : Template := ⟨[1, 2], 2, [.crc], [], true⟩
    (lenState.faulted = false ∧ lenState.committed = true ∧ lenState.template.get .r = some t ∧ lenState.rule = none ∧
      ([1] : Buffer).length = lenState.lenWidth) ∧
    5 = t.start.length + ([1] : Buffer).length + uintOf lenState.lord [1] + (t.suffix.map (suffixLength lenState)).sum ∧
    (17 = t.start.length + ([13] : Buffer).length + uintOf lenState.lord [13] +
      (t.suffix.map (suffixLength lenState)).sum ∧ lenState.maxFrame < 17) ∧
    (SuffixToken.data ∉ t.suffix ∧ t.start ≠ []) := by decide +kernel

/-- L2-SPL-29's length past M with nothing behind it, a span and a suffix token the buffer does not hold, and no length
field at all; the last line is what `lacking` says of the first. -/
theorem test_hyp_SplitlenRequiresPartByPart :
    let t : Template := ⟨[1, 2], 2, [.crc], [], true⟩
    [([1, 2, 0xff] : Buffer), [1, 2, 1]].map (fun b =>
      decide (min b.length lenState.maxFrame < t.start.length + 1 + uintOf lenState.lord (b.drop 2))) = [true, true] ∧
    (t.suffix = [] ++ [.crc] ++ [] ∧ 4 ≤ min ([1, 2, 1, 6] : Buffer).length lenState.maxFrame ∧
      min ([1, 2, 1, 6] : Buffer).length lenState.maxFrame < 4 + suffixLength lenState .crc) ∧
    (t.start <+: ([1, 2] : Buffer) ∧ ([1, 2] : Buffer).length < t.start.length + lenState.lenWidth) ∧
    lacking lenState t false 258 = { adv := some 2, frame := some none, isFinal := some false } := by decide +kernel

/-- Under a rule: a frame with a staffed byte, a pattern byte at the buffer's end without and with eos (R520, D25), and
M in the place of its ESC. -/
theorem test_hyp_SplitlenMeasuresStaffedFrames :
    let t : Template := ⟨[1, 2], 2, [.crc], [], true⟩
    let short := { staffState with cfgMax := 4 }
    (staffState.faulted = false ∧ staffState.committed = true ∧ staffState.template.get .r = some t ∧
      t.start <+: ([1, 2, 1, 2] : Buffer) ∧ SuffixToken.data ∉ t.suffix) ∧
    (frameEnd staffState t true [1, 2, 2, 2, 0x10, 5, 0x78, 0xdb]).toOption = some 8 ∧
    answer staffState 0x41 { buf := [1, 2, 1, 2] } = { adv := some 0, frame := some none, isFinal := some false } ∧
    answer staffState 0x441 { buf := [1, 2, 1, 2] } = { status := .eosIncomplete } ∧
    answer short 0x41 { buf := [1, 2, 1, 2, 0x10] } = { adv := some 2, frame := some none, isFinal := some false } := by
  decide +kernel

theorem test_hyp_SplitOutcomesAreFramed :
    (issued lenState 0x441 { buf := [1, 2, 1, 6, 3] }).Consistent ∧
      ∃ u, exec (.splitlen true .r) (issued lenState 0x441 { buf := [1, 2, 1, 6, 3] }) = .next u ∧
        decide (u.result.status = .ok ∧ u.result.frame = some (some [1, 2, 1, 6, 3])) = true :=
  ⟨by decide +kernel, exists_next (by decide +kernel)⟩

theorem test_hyp_NoNeedAtEndOfStream :
    (issued seState 0x440 { buf := [0xaa] }).Consistent ∧
      ∃ u, exec (.splitse true .r) (issued seState 0x440 { buf := [0xaa] }) = .next u ∧
        decide (u.result.status = .ok) = true :=
  ⟨by decide +kernel, exists_next (by decide +kernel)⟩

theorem test_hyp_FramesAreStableAsBytesArrive :
    ∃ u, exec (.splitlen false .r) (lenState.issue (.splitlen false .r) { buf := [1, 2, 1, 6, 3] }) = .next u ∧
      decide (u.result.adv = some 5 ∧ u.result.frame = some (some [1, 2, 1, 6, 3])) = true :=
  exists_next (by decide +kernel)

theorem test_hyp_BuiltFrameSplitsByEndConstant :
    let t : Template := ⟨[1, 2], 0, [], [3, 4], false⟩
    (seState.Consistent ∧ seState.faulted = false ∧ seState.template.get .r = some t ∧
      seState.fmt.get .r = constCodes [0] ++ [dataCode] ++ constCodes [1] ∧
      ∀ j, j < 6 → t.start.length ≤ j → j + t.endConst.length < 6 → ¬ t.endConst <+: ([1, 2, 0, 1, 3, 4] : Buffer).drop j) ∧
    ∃ u, exec (.build .r) (seState.issue (.build .r) { buf := [0, 1] }) = .next u ∧
      decide (u.result.bytes = some [1, 2, 0, 1, 3, 4]) = true :=
  ⟨by decide +kernel, exists_next (by decide +kernel)⟩

theorem test_hyp_BuiltFrameSplitsByLength :
    (staffState.Consistent ∧ staffState.faulted = false ∧
      staffState.template.get .r = some ⟨[1, 2], 2, [.crc], [], true⟩ ∧
      staffState.fmt.get .r = [0x80] ++ [lenCode] ++ [dataCode] ++ [crcCode] ∧
      (∀ c ∈ [dataCode], c ∈ staffState.lenList.get .r) ∧ (∀ c ∈ [crcCode], c ∉ staffState.lenList.get .r) ∧
      staffState.lenList.get .r = [dataCode] ∧ staffState.lenCountsWire = false ∧ staffState.crcStaffed = true ∧
      8 ≤ staffState.maxFrame) ∧
    (∀ k, tokenCode (.const k) ∈ [dataCode] → False) ∧
    ∃ u, exec (.build .r) (staffState.issue (.build .r) { buf := [2, 5] }) = .next u ∧
      decide (u.result.bytes = some [1, 2, 2, 2, 0x10, 5, 0x78, 0xdb]) = true :=
  ⟨by decide +kernel, by decide +kernel, exists_next (by decide +kernel)⟩

/-- R604's domain: STUFF with a pattern byte before an ESC; and an admitted rule with P = ESC alone. -/
theorem test_hyp_staffing :
    (staffState.faulted = false ∧ staffState.committed = true) ∧
    (staffState.staffEn = true ∧ staffState.cfgPat.getLsbD (2 : Byte).toNat = true ∧ staffState.esc = 0x10 ∧
      ([3] : Buffer).head? ≠ some staffState.esc ∧ staffState.cfgPat.getLsbD (0x10 : Byte).toNat = false) ∧
    (⟨0x10, 4⟩ : StaffRule).admitted = true ∧ (⟨0x10, 0x10000⟩ : StaffRule).admitted = true ∧
    [2].Nodup ∧ (∀ b : Byte, b ∈ ([2] : List Byte) ↔ (⟨0x10, 4⟩ : StaffRule).has b = true) := by decide +kernel

theorem test_hyp_StaffedFieldReadsUnstuffedBytes :
    let r : StaffRule := ⟨0x10, 4⟩
    let c : SplitCtx := ⟨[1, 2, 0x10, 5], 0, 4, false, some r⟩
    c.passField 2 true 1 = .ok 4 ∧ 1 + (stuffBy r [2, 5]).length ≤ c.max := ⟨rfl, by decide⟩

theorem test_hyp_Crc16IsBitSerial : crcSerial bufL11 = (0x40 : Byte) ++ (0xC0 : Byte) := by decide +kernel

theorem test_hyp_ChksumIsTheConfiguredChecksum :
    lenState.faulted = false ∧ lenState.committed = true ∧ lenState.alg = 0 ∧ staffState.alg ≠ 0 := by decide +kernel

theorem test_hyp_CalclenSumsTheCoverageList :
    lenState.faulted = false ∧ lenState.committed = true ∧
      ∀ c ∈ lenState.lenList.get .r, c = dataCode ∨ c = crcCode ∨ 0x80 ≤ c.toNat := by decide +kernel

theorem test_hyp_CalccrcCoversTheLogicalBytes :
    (staffState.faulted = false ∧ staffState.committed = true ∧
      ∀ c ∈ staffState.crcList.get .r, c = lenCode ∨ c = dataCode ∨ 0x80 ≤ c.toNat) ∧
    lenCode ∈ staffState.crcList.get .r ∧ 255 < 2 ^ (8 * staffState.lenWidth) ∧ 2 ^ (8 * staffState.lenWidth) ≤ 256 := by
  decide +kernel

theorem test_hyp_BuildAndVerifyAgree :
    (staffState.Consistent ∧ staffState.faulted = false ∧
      staffState.template.get .r = some ⟨[1, 2], 2, [.crc], [], true⟩) ∧
    ∃ t, exec (.calclen .r) (issued staffState 0x63 { buf := [2, 5] }) = .next t ∧ decide (t.result.n = some 2) = true :=
  ⟨by decide +kernel, exists_next (by decide +kernel)⟩

/-- VERIFY's premises, a length that fits and one that does not; BUILD's with a length too long, and with none used. -/
theorem test_hyp_VerifyAndBuildElsewhere :
    (staffState.faulted = false ∧ staffState.committed = true ∧ lenCode ∈ staffState.crcList.get .r ∧
      255 < 2 ^ (8 * staffState.lenWidth) ∧ 2 ^ (8 * staffState.lenWidth) ≤ 256) ∧
    (lenState.Consistent ∧ lenCode ∈ lenState.fmt.get .r ∧ 2 ^ (8 * lenState.lenWidth) ≤
      ((lenState.lenList.get .r).map (lengthOf lenState .r (List.replicate 256 0))).sum) ∧
    (seState.Consistent ∧ lenCode ∉ seState.fmt.get .r ∧ lenCode ∉ seState.crcList.get .r) := by decide +kernel

theorem test_hyp_ReadLoopEndsAfterEndOfStream :
    let s := { seState with
      loop := ⟨.issue, .r, [0xaa, 1, 2, 0], true, [], [], { fields := [{ val := .bool true }], verifies := true }, []⟩ }
    s.Consistent ∧ s.pending = [] ∧ s.loop.phase = .issue ∧ s.loop.eos = true := by decide +kernel

end Sys2Proof.Tests
end

section
/-! PROOFS. Illegal command words (spec/30_encoding.md R102, R103): `decode` accepts exactly the words that the mask table
`admittedFields` calls legal, and `step` turns every other word into E_ILLEGAL. -/

namespace Sys2Proof.Proofs.Encoding

open Sys2Proof.Machine

/-! ### The opcode map -/

/-- `admittedFields` is written out from spec/opcode_table.json; it agrees with the decoder's own table, row by row. -/
theorem admittedFields_eq_opTable : admittedFields = opTable.map fun r => (r.op, r.admitMask) := by decide

/-- No two commands share an opcode (R107). -/
theorem opTable_op_nodup : (opTable.map OpRow.op).Nodup := by decide

/-- The row the decoder finds is the only row of the table with the word's OP, so the search's order does not matter. -/
theorem wordRow_eq_some_iff {w : Word} {r : OpRow} :
    wordRow w = some r ↔ r ∈ opTable ∧ w.extractLsb' 0 8 = r.op := by
  have found {q : OpRow} (hq : wordRow w = some q) : q ∈ opTable ∧ w.extractLsb' 0 8 = q.op := by
    unfold wordRow at hq
    have hop := List.find?_some hq
    exact ⟨List.mem_of_find?_eq_some hq, (beq_iff_eq.mp hop).symm⟩
  constructor
  · exact found
  · rintro ⟨hr, hop⟩
    obtain ⟨q, hq⟩ : ∃ q, wordRow w = some q :=
      Option.isSome_iff_exists.mp (List.find?_isSome.mpr ⟨r, hr, beq_iff_eq.mpr hop.symm⟩)
    obtain ⟨hmem, hqop⟩ := found hq
    have hqr : q = r := List.inj_on_of_nodup_map opTable_op_nodup hmem hr (hqop.symm.trans hop)
    exact hqr ▸ hq

/-- The mask of R103 holds both bits of ACT exactly when the row admits ACT. -/
theorem admitMask_act_iff (r : OpRow) : r.admitMask &&& 0x1800 = 0x1800 ↔ r.admitsAct = true := by
  unfold OpRow.admitMask
  generalize r.admitsOrd = ord, r.admitsG16 = g16, r.admitsEos = eos, r.admitsAct = act
  decide +revert

/-! ### The decoder -/

/-- The two checks of R103 behind the opcode: no bit outside OP and the admitted fields, and no admitted ACT = 3. -/
def Admits (r : OpRow) (w : Word) : Prop :=
  w &&& ~~~r.admitMask &&& 0xFFFFFF00 = 0 ∧ ¬(r.admitsAct = true ∧ w.extractLsb' 11 2 = 3)

/-- R103 in one line: the command is the one the word's row names for the word's fields, once the row admits them. -/
theorem decode_eq_ok_iff {w : Word} {i : Instr} :
    decode w = .ok i ↔
      ∃ r, wordRow w = some r ∧ Admits r w ∧ r.build (wordOrder w) (wordGrid w) (wordEos w) (wordAction w) = i := by
  unfold decode
  cases wordRow w with
  | none => simp
  | some r =>
    simp only [Option.some.injEq, exists_eq_left']
    split
    · next hfield => exact ⟨nofun, fun ⟨⟨hzero, _⟩, _⟩ => absurd hzero hfield⟩
    · next hfield =>
      split
      · next hact => exact ⟨nofun, fun ⟨⟨_, hlegal⟩, _⟩ => absurd hact hlegal⟩
      · next hact => exact ⟨fun h => ⟨⟨not_not.mp hfield, hact⟩, Except.ok.inj h⟩, fun ⟨_, hi⟩ => congrArg _ hi⟩

/-- A word is legal exactly when its opcode has a row and the row admits its fields. -/
theorem legalWord_iff_row {w : Word} : LegalWord w ↔ ∃ r, wordRow w = some r ∧ Admits r w := by
  simp only [LegalWord, admittedFields_eq_opTable, List.mem_map, exists_exists_and_eq_and, admitMask_act_iff,
    wordRow_eq_some_iff, Admits, and_assoc]

/-- The decoder accepts the legal words of R102 and no others. -/
theorem exists_decode_ok_iff_legalWord {w : Word} : (∃ i, decode w = .ok i) ↔ LegalWord w := by
  simp only [decode_eq_ok_iff, legalWord_iff_row]
  constructor
  · rintro ⟨_, r, hrow, hadm, -⟩
    exact ⟨r, hrow, hadm⟩
  · rintro ⟨r, hrow, hadm⟩
    exact ⟨_, r, hrow, hadm, rfl⟩

/-! ### The step on an issued word -/

section
variable {s : State} {c : Command} {rest : List Command}

/-- A word that decodes is executed, and nothing is added around its execution (R103). -/
theorem step_of_decode_ok {i : Instr} (hp : s.pending = c :: rest) (hd : decode c.word = .ok i) :
    step s = exec i s := by
  simp [step, hp, hd]

/-- E_ILLEGAL is not fatal, so raising it changes nothing but the result record and the command list (R901, R904). -/
theorem raise_illegal (s : State) : s.raise .illegal = s.ended { status := .illegal } :=
  State.raise_of_not_fatal s .illegal (by decide)

/-- A word the decoder refuses ends with E_ILLEGAL, for whichever of the three reasons (R103). -/
theorem step_of_decode_error {e : Illegal} (hp : s.pending = c :: rest) (hd : decode c.word = .error e) :
    step s = .next (s.ended { status := .illegal }) := by
  simp [step, hp, hd, raise_illegal]

end

/-- Settles O3: a word is legal exactly when it decodes, and the step follows the decoder's answer. -/
theorem illegalWordsRaiseIllegal : Obligations.IllegalWordsRaiseIllegal := by
  intro s c rest hp
  constructor
  · intro hillegal
    cases hd : decode c.word with
    | ok i => exact absurd (exists_decode_ok_iff_legalWord.mp ⟨i, hd⟩) hillegal
    | error e => exact step_of_decode_error hp hd
  · intro hlegal
    obtain ⟨i, hd⟩ := exists_decode_ok_iff_legalWord.mpr hlegal
    exact ⟨i, hd, step_of_decode_ok hp hd⟩

end Sys2Proof.Proofs.Encoding
end

section
/-! PROOFS. CHECK's cursor, its bounds, and the values it reads no buffer for (spec/40_codec.md R228 to R233 and R237 to
R239). A CHECK of a value of width w > 0 is `checkField` of that width; each of its ends has an equation here. -/

namespace Sys2Proof.Proofs.Check

open Sys2Proof.Machine

/-! ### Rounding (R9, R230) -/

/-- The model's ceiling division is Mathlib's, so it is adjoint to multiplication. -/
theorem ceilDiv_le_iff {m n w : Nat} (hw : 0 < w) : ceilDiv m w ≤ n ↔ m ≤ w * n :=
  ceilDiv_le_iff_le_mul (b := m) (c := n) hw

/-- A buffer of n bytes is too short in R232's bounds check exactly when it has fewer than m bits. -/
theorem lt_ceilDiv_eight_iff {n m : Nat} : n < ceilDiv m 8 ↔ 8 * n < m := by
  rw [← not_le, ceilDiv_le_iff (by decide), not_le]

/-- The rounded cursor is a multiple of the width, less than one width above the cursor. -/
theorem roundsTo_roundUp {cur w : Nat} (hw : 0 < w) : RoundsTo cur w (roundUp cur w) := by
  have habove : cur ≤ w * ceilDiv cur w := (ceilDiv_le_iff hw).mp le_rfl
  have hbelow : roundUp cur w ≤ cur + w - 1 := Nat.div_mul_le_self _ _
  exact ⟨Nat.dvd_mul_left _ _, habove.trans_eq (Nat.mul_comm _ _), by omega⟩

/-- Only one multiple of the width stands less than one width above the cursor. -/
theorem roundsTo_unique {cur w c d : Nat} (hc : RoundsTo cur w c) (hd : RoundsTo cur w d) : c = d := by
  obtain ⟨⟨a, rfl⟩, hca, hcb⟩ := hc
  obtain ⟨⟨b, rfl⟩, hda, hdb⟩ := hd
  have hab : a < b + 1 := Nat.lt_of_mul_lt_mul_left (a := w) (by rw [Nat.mul_succ]; omega)
  have hba : b < a + 1 := Nat.lt_of_mul_lt_mul_left (a := w) (by rw [Nat.mul_succ]; omega)
  rw [show a = b by omega]

theorem roundUp_eq_of_roundsTo {cur w c : Nat} (h : RoundsTo cur w c) : roundUp cur w = c :=
  roundsTo_unique (roundsTo_roundUp (by omega)) h

/-- The cursor is not moved exactly when it is a multiple of the width. -/
theorem roundUp_eq_self_iff {cur w : Nat} (hw : 0 < w) : roundUp cur w = cur ↔ w ∣ cur :=
  ⟨fun h => h ▸ (roundsTo_roundUp hw).1, fun h => roundUp_eq_of_roundsTo ⟨h, le_rfl, by omega⟩⟩

/-! ### Raw bytes (R250) -/

/-- The pairing loop refuses text with E_HEX and no other status. -/
theorem hexPairs_error {l : Buffer} {e : Status} (h : hexPairs l = .error e) : e = .hex := by
  induction l using hexPairs.induct with
  | case1 a b r x y hb ha bs hr => simp [hexPairs, ha, hb, hr] at h
  | case2 a b r x y hb ha c hr ih => exact ih (by simpa [hexPairs, ha, hb, hr] using h)
  | case3 a b r hbad => simpa [hexPairs, hbad] using h.symm
  | case4 l _ => simp [hexPairs] at h

theorem lenBit_bytes_of_ok {t bs : Buffer} (h : hexDec t = .ok bs) : lenBit (.bytes t) = .ok (8 * bs.length) := by
  simp [lenBit, h]

theorem lenBit_bytes_of_error {t : Buffer} {e : Status} (h : hexDec t = .error e) :
    lenBit (.bytes t) = .error .hex := by
  obtain rfl := hexPairs_error h
  simp [lenBit, h]

/-! ### Widths and placement (R210, R231) -/

/-- A field is one bit or whole bytes. -/
theorem lenBit_eq_one_or_dvd {v : Value} {w : Nat} (h : lenBit v = .ok w) : w = 1 ∨ 8 ∣ w := by
  cases v with
  | bool b => exact .inl (Except.ok.inj h).symm
  | int k _ | rngInt k _ _ => cases h; cases k <;> decide
  | flt k _ | rngFlt k _ _ => cases h; cases k <;> decide
  | str t => exact .inr ⟨t.length, (Except.ok.inj h).symm⟩
  | bytes t =>
    cases ht : hexDec t with
    | ok bs => exact .inr ⟨bs.length, Except.ok.inj (h.symm.trans (lenBit_bytes_of_ok ht))⟩
    | error e => cases h.symm.trans (lenBit_bytes_of_error ht)
  | empty | time _ | err _ => cases h; decide

/-- A big-endian byte or bit in a 16-bit grid lies in the other byte of its register. -/
theorem place_be_g16_stop {w cur : Nat} (hw : w = 1 ∨ w = 8) :
    (place w cur 16 .be).stop = otherByte (roundUp cur w / 8) + 1 := by
  have hdvd : w ∣ roundUp cur w := Nat.dvd_mul_left _ _
  unfold place otherByte mirror
  rcases hw with rfl | rfl <;> simp <;> omega

/-! ### CHECK of a field (R232, R233) -/

section
variable {ord : Order} {grid w : Nat} {o : Operands}

/-- A buffer that ends before the field does is not read. -/
theorem checkField_of_short (h : 8 * o.buf.length < roundUp o.cur w + w) :
    checkField ord grid o w = checked o.val (roundUp o.cur w + w) false none :=
  if_pos (lt_ceilDiv_eight_iff.mpr h)

/-- A placement past a long enough buffer is refused. -/
theorem checkField_of_oob (h : roundUp o.cur w + w ≤ 8 * o.buf.length)
    (hstop : o.buf.length < (place w o.cur grid ord).stop) : checkField ord grid o w = .error .checkOob :=
  (if_neg (mt lt_ceilDiv_eight_iff.mp h.not_gt)).trans (if_pos hstop)

/-- Everything CHECK of a field can end with: the cursor behind the field and a report, or E_CHECK_OOB. -/
theorem checkField_cases (ord : Order) (grid w : Nat) (o : Operands) :
    (∃ pass got, checkField ord grid o w = checked o.val (roundUp o.cur w + w) pass got) ∨
      checkField ord grid o w = .error .checkOob := by
  by_cases hshort : 8 * o.buf.length < roundUp o.cur w + w
  · exact .inl ⟨_, _, checkField_of_short hshort⟩
  · by_cases hstop : o.buf.length < (place w o.cur grid ord).stop
    · exact .inr (checkField_of_oob (Nat.le_of_not_lt hshort) hstop)
    · exact .inl ⟨_, _, (if_neg (mt lt_ceilDiv_eight_iff.mp hshort)).trans (if_neg hstop)⟩

/-! ### CHECK by variant (R228, R229, R237 to R239) -/

/-- A value of width w > 0 is none of EMPTY, TIME and ERR, and is checked as a field. -/
theorem checkBody_of_width (h : lenBit o.val = .ok w) (hw : 0 < w) :
    checkBody ord grid o = checkField ord grid o w := by
  have hsized : checkSized ord grid o = checkField ord grid o w := by
    simp [checkSized, h, Nat.ne_of_gt hw]
  rw [← hsized]
  unfold checkBody
  split
  case h_1 hv | h_2 hv | h_3 hv =>
    rw [hv] at h
    cases h
    exact absurd hw (Nat.lt_irrefl 0)
  all_goals rfl

theorem checkBody_empty (h : o.val = .empty) :
    checkBody ord grid o = checked .empty o.cur Config.emptyCheckPass none := by
  simp [checkBody, h]

theorem checkBody_time {t : Buffer} (h : o.val = .time t) :
    checkBody ord grid o = checked (.time t) o.cur (timePass o.elapsed t) (some (.int o.elapsed.toInt)) := by
  simp [checkBody, h]

theorem checkBody_err {t : Buffer} (h : o.val = .err t) :
    checkBody ord grid o = checked (.err t) o.cur (o.errtext = t) (some (.buf o.errtext)) := by
  simp [checkBody, h]

theorem checkBody_str_nil (h : o.val = .str []) :
    checkBody ord grid o = checked o.val o.cur true (some (.buf [])) := by
  simp [checkBody, checkSized, lenBit, h]

theorem checkBody_bytes_nil {t : Buffer} (h : o.val = .bytes t) (ht : hexDec t = .ok []) :
    checkBody ord grid o = checked o.val o.cur true (some (.buf [])) := by
  simp [checkBody, checkSized, lenBit_bytes_of_ok ht, h]

theorem checkBody_bytes_error {t : Buffer} {e : Status} (h : o.val = .bytes t) (ht : hexDec t = .error e) :
    checkBody ord grid o = .error .hex := by
  simp [checkBody, checkSized, lenBit_bytes_of_error ht, h]

end

/-! ### The command and its report (R228, R240, R270) -/

/-- The report of every CHECK describes the value checked. -/
theorem describes_reportOf (v : Value) (pass : Bool) (got : Option Datum) : Describes (reportOf v pass got) v := by
  cases v with
  | int k _ | flt k _ | rngInt k _ _ | rngFlt k _ _ => cases k <;> exact ⟨rfl, rfl⟩
  | bool _ | str _ => exact ⟨rfl, rfl⟩
  | bytes _ | time _ | err _ | empty => exact ⟨rfl, trivial⟩

section
variable {s : State} {ord : Order} {grid : Grid}

theorem exec_check (s : State) (ord : Order) (grid : Grid) :
    exec (.check ord grid) s = s.free (checkBody ord (gridBits grid) s.operands) := rfl

/-- CHECK delivers what its body answers and changes no register. -/
theorem exec_check_of_checked {v : Value} {cur : Nat} {pass : Bool} {got : Option Datum} (hs : s.faulted = false)
    (h : checkBody ord (gridBits grid) s.operands = checked v cur pass got) :
    exec (.check ord grid) s = .next (s.ended { cur := some cur, report := some (reportOf v pass got) }) := by
  rw [exec_check, State.free_of_ok hs, h]
  rfl

/-- CHECK's own statuses are not fatal, so they change no register (R904). -/
theorem exec_check_of_error {c : Status} (hs : s.faulted = false) (hc : c.fatal = false)
    (h : checkBody ord (gridBits grid) s.operands = .error c) :
    exec (.check ord grid) s = .next (s.ended { status := c }) := by
  rw [exec_check, State.free_of_ok hs, h, State.respond_error, State.raise_of_not_fatal s c hc]
  rfl

end

/-! ### The obligations -/

/-- Settles O26: a check that ends with OK is no refusal, so its cursor stands one width behind the rounded one. -/
theorem checkAdvancesRoundedCursor : Obligations.CheckAdvancesRoundedCursor := by
  intro s t ord grid w hlen hw hexec hok
  obtain ⟨hdvd, hle, hlt⟩ := roundsTo_roundUp (cur := s.operands.cur) hw
  refine ⟨_, hdvd, hle, hlt, ?_, by rw [Nat.add_right_cancel_iff, roundUp_eq_self_iff hw]⟩
  obtain ⟨-, rfl⟩ | ⟨hs, -⟩ := State.free_next hexec
  · rw [State.raise_result] at hok
    cases hok
  have hbody := checkBody_of_width (ord := ord) (grid := gridBits grid) hlen hw
  obtain ⟨pass, got, hfield⟩ | hfield := checkField_cases ord (gridBits grid) w s.operands
  · cases hexec.symm.trans (exec_check_of_checked hs (hbody.trans hfield))
    rfl
  · cases hexec.symm.trans (exec_check_of_error hs rfl (hbody.trans hfield))
    cases hok

/-- Settles O29: the two refusals of the bounds, and the mirrored byte or bit that meets the second. -/
theorem checkNeverReadsPastTheBuffer : Obligations.CheckNeverReadsPastTheBuffer := by
  intro s ord grid w c hs hlen hw hdvd hle hlt
  have hround : roundUp s.operands.cur w = c := roundUp_eq_of_roundsTo ⟨hdvd, hle, hlt⟩
  have hoob {ord grid} (hlong : c + w ≤ 8 * s.operands.buf.length)
      (hstop : s.operands.buf.length < (place w s.operands.cur (gridBits grid) ord).stop) :
      exec (.check ord grid) s = .next (s.ended { status := .checkOob }) :=
    exec_check_of_error hs rfl ((checkBody_of_width hlen hw).trans (checkField_of_oob (hround ▸ hlong) hstop))
  refine ⟨fun hshort => ?_, hoob, fun hlong hnarrow hother => hoob hlong ?_⟩
  · have hfield := checkField_of_short (ord := ord) (grid := gridBits grid) (hround ▸ hshort)
    rw [hround, ← checkBody_of_width hlen hw] at hfield
    exact ⟨_, exec_check_of_checked hs hfield, describes_reportOf _ _ _, rfl, rfl⟩
  · have hwidth : w = 1 ∨ w = 8 := by
      have := lenBit_eq_one_or_dvd hlen
      omega
    rw [gridBits, place_be_g16_stop hwidth, hround]
    exact Nat.lt_succ_of_le hother

/-- Settles O30, by the variant of the value checked. -/
theorem checkOfUnreadVariants : Obligations.CheckOfUnreadVariants := by
  intro s ord grid hs
  refine ⟨fun t hv => ?_, fun t hv => ?_, fun hv => ?_, fun hv => ?_, fun t e hv ht => ?_⟩
  · exact ⟨_, exec_check_of_checked hs (checkBody_time hv), decide_eq_true_iff, rfl, rfl⟩
  · exact ⟨_, exec_check_of_checked hs (checkBody_err hv), decide_eq_true_iff, rfl, rfl⟩
  · exact ⟨_, exec_check_of_checked hs (checkBody_empty hv), rfl, rfl, rfl⟩
  · have hnil : checkBody ord (gridBits grid) s.operands =
        checked s.operands.val s.operands.cur true (some (.buf [])) := by
      rcases hv with hv | ⟨t, hv, ht⟩
      · exact checkBody_str_nil hv
      · exact checkBody_bytes_nil hv ht
    exact ⟨_, exec_check_of_checked hs hnil, rfl, rfl, describes_reportOf _ _ _⟩
  · exact exec_check_of_error hs rfl (checkBody_bytes_error hv ht)

end Sys2Proof.Proofs.Check
end

section
/-! PROOFS. STATUS (spec/46_control.md R809). The word it returns is `ctrlWord` of CTRL's three fields, whose places do
not overlap, so as a number the word is the sum of the fields at their places. -/

namespace Sys2Proof.Proofs.Control

open Sys2Proof.Machine

/-! ### The CTRL word as a number (R44) -/

/-- A flag at bit i stands above a number of fewer bits, so setting it adds its weight. -/
theorem or_flag_eq_add {n i : Nat} (h : n < 2 ^ i) (f : Bool) :
    n ||| (if f then 2 ^ i else 0) = n + if f then 2 ^ i else 0 := by
  cases f with
  | false => exact Nat.or_zero n
  | true => simpa [Nat.or_comm, Nat.add_comm] using (Nat.two_pow_add_eq_or_of_lt h 1).symm

theorem ctrlWord_toNat (c : Byte) (m f : Bool) :
    (ctrlWord c m f).toNat = c.toNat + (if m then 256 else 0) + (if f then 512 else 0) := by
  have hc : c.toNat < 2 ^ 8 := c.isLt
  have hm : c.toNat + (if m then 2 ^ 8 else 0) < 2 ^ 9 := by split <;> omega
  calc (ctrlWord c m f).toNat
      = c.toNat ||| (if m then 2 ^ 8 else 0) ||| (if f then 2 ^ 9 else 0) := by
        rw [ctrlWord, BitVec.toNat_or, BitVec.toNat_or, BitVec.toNat_setWidth_of_le (by decide)]
        cases m <;> cases f <;> rfl
    _ = c.toNat + (if m then 2 ^ 8 else 0) + (if f then 2 ^ 9 else 0) := by
        rw [or_flag_eq_add hc, or_flag_eq_add hm]

/-! ### The command -/

/-- STATUS passes no gate, so it answers in every state, and it changes no register (R800, R809). -/
theorem exec_status (s : State) : exec .status s = .next (s.ended { stat := some s.statusWord }) := rfl

/-! ### The obligations -/

/-- Settles O17: the word returned is CTRL's fields at their places. -/
theorem statusReadsControl : Obligations.StatusReadsControl := fun s =>
  ⟨s.statusWord, exec_status s, ctrlWord_toNat s.fcode s.committed s.faulted⟩

end Sys2Proof.Proofs.Control
end

section
/-! PROOFS. Statuses and faults (spec/60_exceptions.md R900 to R904). Every command but STATUS and RESET stands behind a
gate of R800, and the body behind the gate ends with OK or with a status that is not fatal, COMMIT's body aside. From this
one fact about the commands, `exec_gated`, follow how a command can end and what a fault changes. The lemmas about what a
command computes are tagged `simp`, so that `exec_gated` treats the commands that only report an answer alike. -/

namespace Sys2Proof.Proofs.Exceptions

open Sys2Proof.Machine

/-! ### What a computation can end with -/

/-- The computation ends with an answer that has p or with an exception that has q. -/
def EndsWith {ε α : Type} (q : ε → Prop) (p : α → Prop) : Except ε α → Prop
  | .ok x => p x
  | .error e => q e

theorem EndsWith.ok {ε α : Type} {q : ε → Prop} {p : α → Prop} {x : α} (h : p x) : EndsWith q p (.ok x) := h

/-- An exception of a part of a computation, which the model passes on by a match. -/
theorem EndsWith.error {ε α : Type} {q : ε → Prop} {p : α → Prop} {b : Except ε α} {e : ε} (hb : EndsWith q p b)
    (he : b = .error e) : q e := by
  subst he
  exact hb

/-- The computation raises no fatal status. -/
abbrev NonFatal {α : Type} : Except Status α → Prop := EndsWith (fun c => c.fatal = false) fun _ => True

theorem not_fatal_of_error {α : Type} {b : Except Status α} {c : Status} (he : b = .error c) (hb : NonFatal b) :
    c.fatal = false :=
  hb.error he

/-- The computation of a result record: it raises no fatal status, and the record it answers says OK. -/
abbrev NonFatalResult : Except Status Result → Prop := EndsWith (fun c => c.fatal = false) fun r => r.status = .ok

/-! ### The codec and the packers -/

@[simp] theorem kind_nonFatal (r : RawRec) : NonFatal r.kind := by
  unfold RawRec.kind
  split
  · trivial
  · trivial
  · rfl

@[simp] theorem hexDec_nonFatal (t : Buffer) : NonFatal (hexDec t) := by
  cases h : hexDec t with
  | ok _ => trivial
  | error _ => exact Check.hexPairs_error h ▸ rfl

@[simp] theorem lenBit_nonFatal (v : Value) : NonFatal (lenBit v) := by
  unfold lenBit
  split
  case h_7 t =>
    split
    · trivial
    · next he => exact (hexDec_nonFatal t).error he
  all_goals trivial

@[simp] theorem writeValue_nonFatal (ord : Order) (v : Value) : NonFatal (writeValue ord v) := by
  cases v with
  | int _ _ | flt _ _ | bool _ | str _ => trivial
  | bytes t => exact hexDec_nonFatal t
  | empty | rngInt _ _ _ | rngFlt _ _ _ | time _ | err _ => rfl

theorem checkSized_nonFatal (ord : Order) (grid : Nat) (o : Operands) : NonFatalResult (checkSized ord grid o) := by
  unfold checkSized
  split
  · next he => exact (lenBit_nonFatal o.val).error he
  · next w _ =>
    split
    · rfl
    · obtain ⟨pass, got, h⟩ | h := Check.checkField_cases ord grid w o <;> rw [h] <;> rfl

theorem checkBody_nonFatal (ord : Order) (grid : Nat) (o : Operands) : NonFatalResult (checkBody ord grid o) := by
  unfold checkBody
  split
  case h_1 | h_2 | h_3 => rfl
  all_goals exact checkSized_nonFatal ord grid o

theorem countFrom_nonFatal (grid : Nat) (vs : List Value) (c : Nat) : NonFatal (countFrom grid vs c) := by
  fun_induction countFrom grid vs c with
  | case1 => trivial
  | case2 _ _ _ ih => exact ih
  | case3 v _ _ _ e he => exact (lenBit_nonFatal v).error he
  | case4 _ _ _ _ _ _ ih => exact ih

@[simp] theorem countBits_nonFatal (grid : Nat) (vs : List Value) : NonFatal (countBits grid vs) := by
  unfold countBits
  split
  · trivial
  · next he => exact (countFrom_nonFatal grid vs 0).error he

theorem packFrom_nonFatal (grid : Nat) (ord : Order) (vs : List Value) (p : Packed) :
    NonFatal (packFrom grid ord vs p) := by
  fun_induction packFrom grid ord vs p with
  | case1 => trivial
  | case2 _ _ _ ih => exact ih
  | case3 v _ _ _ e he => exact (writeValue_nonFatal ord v).error he
  | case4 _ _ _ _ _ _ ih => exact ih

@[simp] theorem pack8Bytes_nonFatal (ord : Order) (vs : List Value) : NonFatal (pack8Bytes ord vs) := by
  unfold pack8Bytes
  split
  · trivial
  · next he => exact (packFrom_nonFatal 8 ord vs _).error he

@[simp] theorem pack16Bytes_nonFatal (ord : Order) (vs : List Value) : NonFatal (pack16Bytes ord vs) := by
  unfold pack16Bytes
  split
  · trivial
  · next he => exact (packFrom_nonFatal 16 ord vs _).error he

/-! ### Lengths, checksums and frames -/

section
variable (s : State) (a : Action) (data : Buffer)

@[simp] theorem calcCrc_nonFatal (lenval : Nat) : NonFatal (calcCrc s a data lenval) := by
  unfold calcCrc
  split
  · rfl
  · trivial

theorem tokenLen_nonFatal (t : Token) : NonFatal (tokenLen s a data t) := by
  cases t with
  | crc =>
    simp only [tokenLen]
    split
    · split
      · trivial
      · next he => exact (calcCrc_nonFatal s a data 0).error he
    · trivial
  | _ => trivial

theorem totalLen_nonFatal (ts : List Token) (tot : Nat) : NonFatal (totalLen s a data ts tot) := by
  fun_induction totalLen s a data ts tot with
  | case1 => trivial
  | case2 _ _ _ _ _ ih => exact ih
  | case3 t _ _ e he => exact (tokenLen_nonFatal s a data t).error he

@[simp] theorem calcLen_nonFatal : NonFatal (calcLen s a data) := by
  unfold calcLen
  split
  · next he => exact (totalLen_nonFatal s a data _ 0).error he
  · split
    · rfl
    · trivial

theorem buildLen_nonFatal : NonFatal (buildLen s a data) := by
  unfold buildLen
  split
  · exact calcLen_nonFatal s a data
  · trivial

theorem buildFrame_nonFatal : NonFatal (buildFrame s a data) := by
  unfold buildFrame
  split
  · next he => exact (buildLen_nonFatal s a data).error he
  · split
    · next he => exact (calcCrc_nonFatal s a data _).error he
    · trivial

end

/-! ### The splitters -/

/-- A splitter's exit with an outcome or with a status that is not fatal. -/
abbrev NonFatalExit (e : SplitExit) : Prop := NonFatalResult e.toExcept

theorem outcome_nonFatal (o : SplitOutcome) : NonFatalExit (.outcome o) := by cases o <;> rfl

theorem splitSE_nonFatal (t : Template) (m : Nat) (buf : Buffer) (eos : Bool) : NonFatalExit (splitSE t m buf eos) := by
  unfold splitSE seekEnd
  split
  · exact outcome_nonFatal _
  · split
    · exact outcome_nonFatal _
    · split
      · exact outcome_nonFatal _
      · split
        · rfl
        · exact outcome_nonFatal _

section
variable (x : SplitCtx)

/-- A part of SPLITLEN leaves the frame only through an exit that raises no fatal status. -/
abbrev NonFatalPart {α : Type} : Except SplitExit α → Prop := EndsWith NonFatalExit fun _ => True

theorem missing_nonFatal (idx : Nat) : NonFatalExit (x.missing idx) := by
  unfold SplitCtx.missing
  split
  · exact outcome_nonFatal _
  · split
    · rfl
    · exact outcome_nonFatal _

theorem require_nonFatal (idx : Nat) : NonFatalPart (x.require idx) := by
  unfold SplitCtx.require
  split
  · trivial
  · exact missing_nonFatal x idx

theorem skip_nonFatal (n pos : Nat) : NonFatalPart (x.skip n pos) := by
  unfold SplitCtx.skip
  split
  · trivial
  · split
    · trivial
    · next he => exact (require_nonFatal x _).error he

theorem consField_nonFatal (b : Byte) {f : Except SplitExit (Buffer × Nat)} (h : NonFatalPart f) :
    NonFatalPart (consField b f) := by
  cases f with
  | ok _ => trivial
  | error _ => exact h

theorem staffedField_nonFatal (r : StaffRule) (bs : Buffer) (n pos : Nat) :
    NonFatalPart (x.staffedField r bs n pos) := by
  fun_induction SplitCtx.staffedField x r bs n pos with
  | case1 | case3 | case6 | case8 => trivial
  | case2 | case4 | case7 | case9 => exact missing_nonFatal x _
  | case5 => exact outcome_nonFatal _
  | case10 _ _ _ _ _ _ _ _ ih | case11 _ _ _ _ _ _ _ _ ih => exact consField_nonFatal _ ih

theorem field_nonFatal (n : Nat) (stuffed : Bool) (pos : Nat) : NonFatalPart (x.field n stuffed pos) := by
  unfold SplitCtx.field
  split
  · exact staffedField_nonFatal x _ _ n pos
  · split
    · trivial
    · next he => exact (skip_nonFatal x n pos).error he

theorem passField_nonFatal (n : Nat) (stuffed : Bool) (pos : Nat) : NonFatalPart (x.passField n stuffed pos) := by
  unfold SplitCtx.passField
  split
  · trivial
  · next he => exact (field_nonFatal x n stuffed pos).error he

theorem span_nonFatal (countsWire : Bool) (n pos : Nat) : NonFatalPart (x.span countsWire n pos) := by
  unfold SplitCtx.span
  split
  · exact skip_nonFatal x n pos
  · exact passField_nonFatal x n true pos

theorem suffixToken_nonFatal (s : State) (pos : Nat) (t : SuffixToken) : NonFatalPart (x.suffixToken s pos t) := by
  cases t with
  | crc => exact passField_nonFatal x _ _ pos
  | const k => exact skip_nonFatal x _ pos
  | data => trivial

theorem suffix_nonFatal (s : State) (ts : List SuffixToken) (pos : Nat) : NonFatalPart (x.suffix s ts pos) := by
  fun_induction SplitCtx.suffix x s ts pos with
  | case1 => trivial
  | case2 _ _ _ _ _ ih => exact ih
  | case3 t _ pos e he => exact (suffixToken_nonFatal x s pos t).error he

theorem frameLength_nonFatal (s : State) (t : Template) : NonFatalPart (x.frameLength s t) := by
  unfold SplitCtx.frameLength
  split
  · next he => exact (field_nonFatal x _ _ _).error he
  · split
    · next he => exact (span_nonFatal x _ _ _).error he
    · exact suffix_nonFatal x s _ _

end

theorem splitLen_nonFatal (s : State) (t : Template) (buf : Buffer) (eos : Bool) :
    NonFatalExit (splitLen s t buf eos) := by
  unfold splitLen seekLength
  split
  · exact outcome_nonFatal _
  · split
    · exact outcome_nonFatal _
    · next he => exact (frameLength_nonFatal _ s t).error he

/-! ### The SET commands -/

theorem operandField_nonFatal (n : Nat) (w : Word) : NonFatal (operandField n w) := by
  unfold operandField
  split
  · trivial
  · rfl

theorem setconstBody_nonFatal (s : State) (o : Operands) : NonFatal (setconstBody s o) := by
  unfold setconstBody
  split
  · rfl
  · trivial

/-! ### Every command behind its gate (R800) -/

/-- A command's meaning: a gate of R800 with a body behind it that raises no fatal status, COMMIT's body aside. -/
inductive Gated (s : State) (i : Instr) : Out → Prop
  | free {b : Except Status Result} (hb : NonFatalResult b) : Gated s i (s.free b)
  | configured {b : Except Status Result} (hb : NonFatalResult b) : Gated s i (s.configured b)
  | unlocked {b : Except Status State} (hb : i ≠ .commit → NonFatal b) : Gated s i (s.unlocked b)

/-- A command that needs a template ends with E_NOT_CFG, which is not fatal, where there is none. -/
theorem Gated.withTemplate {s : State} {i : Instr} {a : Action} {b : Template → Except Status Result}
    (hb : ∀ t, NonFatalResult (b t)) : Gated s i (s.withTemplate a b) := by
  refine .configured ?_
  split
  · rfl
  · exact hb _

/-- Every command but STATUS and RESET stands behind a gate. -/
theorem exec_gated (s : State) {i : Instr} (hstatus : i ≠ .status) (hreset : i ≠ .reset) : Gated s i (exec i s) := by
  cases i with
  | status => exact absurd rfl hstatus
  | reset => exact absurd rfl hreset
  | setconst => exact .unlocked fun _ => setconstBody_nonFatal s _
  | setstaff | setcrc | setlen =>
    refine .unlocked fun _ => ?_
    simp only [setstaffBody, setcrcBody, setlenBody]
    split
    · trivial
    · next he => exact (operandField_nonFatal _ _).error he
  | setfmt _ | setcrclist _ | setlenlist _ | setmax => exact .unlocked fun _ => trivial
  | commit => exact .unlocked fun h => absurd rfl h
  | type | lenbit | write _ | hexdec | countbit _ | pack8 _ | pack16 _ =>
    refine .free ?_
    split
    · rfl
    · next he => exact not_fatal_of_error he (by simp)
  | check ord grid => exact .free (checkBody_nonFatal ord _ _)
  | durparse | mod256 | crc16 _ => exact .free (.ok rfl)
  | stuff | unstuff | chksum => exact .configured (.ok rfl)
  | calclen _ | calccrc _ | verify _ =>
    refine .configured ?_
    split
    · rfl
    · next he => exact not_fatal_of_error he (by simp)
  | build a =>
    refine .withTemplate fun _ => ?_
    split
    · rfl
    · next he => exact (buildFrame_nonFatal s a _).error he
  | splitse eos a =>
    refine .withTemplate fun t => ?_
    split
    · rfl
    · exact splitSE_nonFatal t _ _ eos
  | splitlen eos a =>
    refine .withTemplate fun t => ?_
    split
    · exact splitLen_nonFatal s t _ eos
    · rfl

/-! ### Raising a status (R902, R904) -/

section
variable (s : State)

theorem raise_eq (c : Status) : s.raise c =
    { s with ctrl := (s.raise c).ctrl, result := { status := c }, pending := s.pending.tail } := by
  unfold State.raise
  split <;> rfl

theorem raise_faulted_status : s.raise .faulted = s.ended { status := .faulted } :=
  State.raise_of_not_fatal s .faulted rfl

variable {c : Status}

theorem raise_ctrl_of_not_fatal (h : c.fatal = false) : (s.raise c).ctrl = s.ctrl := by
  simp [State.raise_ctrl, h]

/-- A fatal status sets two fields of CTRL and keeps the third. -/
theorem raise_fields_of_fatal (h : c.fatal = true) :
    (s.raise c).faulted = true ∧ (s.raise c).fcode = c.code ∧ (s.raise c).committed = s.committed := by
  have hctrl : (s.raise c).ctrl = ctrlWord c.code s.committed true := (s.raise_ctrl c).trans (if_pos h)
  rw [State.faulted, State.fcode, State.committed, hctrl]
  exact ⟨ctrlWord_faulted _ _ _, ctrlWord_fcode _ _ _, ctrlWord_committed _ _ _⟩

end

/-! ### How a command ends -/

/-- How command i can end in state s: with OK, or with a status it raises. A fatal one is COMMIT's, raised behind its
lock. -/
inductive Ended (s : State) (i : Instr) : State → Prop
  | ok {t : State} (h : t.result.status = .ok) : Ended s i t
  | raised {c : Status} (h : c.fatal = true → i = .commit ∧ s.committed = false) : Ended s i (s.raise c)

section
variable {s t : State} {i : Instr} {o : Out}

theorem Ended.of_not_fatal {c : Status} (h : c.fatal = false) : Ended s i (s.raise c) :=
  .raised fun hfatal => Bool.noConfusion (h.symm.trans hfatal)

theorem Gated.ended (h : Gated s i (.next t)) : Ended s i t := by
  generalize ho : Host.Outcome.next t = o at h
  cases h with
  | free hb =>
    obtain ⟨-, rfl⟩ | ⟨-, ⟨r, rfl, rfl⟩ | ⟨c, rfl, rfl⟩⟩ := State.free_next ho.symm
    · exact .of_not_fatal rfl
    · exact .ok hb
    · exact .of_not_fatal hb
  | configured hb =>
    obtain ⟨-, rfl⟩ | ⟨-, -, rfl⟩ | ⟨-, -, ⟨r, rfl, rfl⟩ | ⟨c, rfl, rfl⟩⟩ := State.configured_next ho.symm
    · exact .of_not_fatal rfl
    · exact .of_not_fatal rfl
    · exact .ok hb
    · exact .of_not_fatal hb
  | unlocked hb =>
    obtain ⟨-, rfl⟩ | ⟨-, -, rfl⟩ | ⟨-, hopen, ⟨u, rfl, rfl⟩ | ⟨c, rfl, rfl⟩⟩ := State.unlocked_next ho.symm
    · exact .of_not_fatal rfl
    · exact .of_not_fatal rfl
    · exact .ok rfl
    · by_cases hi : i = .commit
      · exact .raised fun _ => ⟨hi, hopen⟩
      · exact .of_not_fatal (hb hi)

/-- Everything a command can end with. -/
theorem exec_ended (h : exec i s = .next t) : Ended s i t := by
  by_cases hstatus : i = .status
  · subst hstatus
    cases h
    exact .ok rfl
  · by_cases hreset : i = .reset
    · subst hreset
      cases h
      exact .ok rfl
    · exact (h ▸ exec_gated s hstatus hreset).ended

/-- A command that ends with a fatal status is COMMIT behind its lock, and it has raised that status. -/
theorem exec_fatal (h : exec i s = .next t) (hfatal : t.result.status.fatal = true) :
    i = .commit ∧ s.committed = false ∧ t = s.raise t.result.status := by
  cases exec_ended h with
  | ok hok =>
    rw [hok] at hfatal
    cases hfatal
  | raised hc =>
    rw [State.raise_result] at hfatal ⊢
    obtain ⟨hi, hopen⟩ := hc hfatal
    exact ⟨hi, hopen, rfl⟩

/-- A step of an issued command that does not end with OK has raised its status, be the word legal or not. -/
theorem step_raises {c : Command} {rest : List Command} (hp : s.pending = c :: rest) (h : step s = .next t)
    (hne : t.result.status ≠ .ok) : t = s.raise t.result.status := by
  obtain ⟨hnil, -⟩ | ⟨_, _, _, -, -, rfl⟩ | ⟨_, _, i, -, -, hexec⟩ := step_cases h
  · cases hp.symm.trans hnil
  · rw [State.raise_result]
  · cases exec_ended hexec with
    | ok hok => exact absurd hok hne
    | raised _ => rw [State.raise_result]

/-- While FAULTED is 1, every gate answers E_FAULTED. -/
theorem Gated.eq_of_faulted (h : Gated s i o) (hf : s.faulted = true) :
    o = .next (s.ended { status := .faulted }) := by
  rw [← raise_faulted_status]
  cases h with
  | free _ | configured _ | unlocked _ => exact if_pos hf

end

/-! ### The obligations -/

/-- Settles O10: the codes case by case, and a fatal end is COMMIT's. -/
theorem onlyCommitRaisesFatal : Obligations.OnlyCommitRaisesFatal := by
  refine ⟨fun c => ?_, fun c => ?_, fun i s t hexec hfatal => (exec_fatal hexec hfatal).1⟩
  · cases c <;> decide
  · rw [Status.fatal, Bool.and_eq_true, decide_eq_true_iff, decide_eq_true_iff]

/-- Settles O11: a step that does not end with OK is `raise`, whose fields are known. -/
theorem failingCommandIsPrecise : Obligations.FailingCommandIsPrecise := by
  intro s t c rest hp hstep hne
  obtain ⟨d, rfl⟩ : ∃ d, t = s.raise d := ⟨_, step_raises hp hstep hne⟩
  have heq := raise_eq s d
  rw [hp] at heq
  rw [State.raise_result]
  exact ⟨rfl, heq, raise_ctrl_of_not_fatal s, raise_fields_of_fatal s⟩

/-- Settles O12: a fatal end is COMMIT's `raise` in a state that is not committed; once FAULTED, every gate is shut. -/
theorem fatalFaultIsSticky : Obligations.FatalFaultIsSticky := by
  refine ⟨fun i s t hexec hfatal => ?_, fun i s hf hstatus hreset => (exec_gated s hstatus hreset).eq_of_faulted hf⟩
  obtain ⟨-, hopen, ht⟩ := exec_fatal hexec hfatal
  obtain ⟨d, rfl⟩ : ∃ d, t = s.raise d := ⟨_, ht⟩
  rw [State.raise_result] at hfatal ⊢
  obtain ⟨hfaulted, hfcode, hcommitted⟩ := raise_fields_of_fatal s hfatal
  exact ⟨hfaulted, hfcode, hcommitted.trans hopen, raise_eq s d⟩

end Sys2Proof.Proofs.Exceptions
end

section
/-! PROOFS. Legal command words (spec/30_encoding.md R100 to R108): a word that the decoder accepts is put together from
its opcode and the fields its row admits, which is how the encoder writes the command, so the two are inverse to each
other. -/

namespace Sys2Proof.Proofs.Words

open Sys2Proof.Machine Sys2Proof.Proofs.Encoding

/-! ### A word as its fields (R100) -/

/-- The word with opcode `r.op` and the fields row r admits, each in its place. -/
def fieldWord (r : OpRow) (o : Order) (g : Grid) (e : Bool) (a : Action) : Word :=
  r.op.setWidth 32 ||| ((if r.admitsOrd then o.bits else 0) ||| (if r.admitsG16 then g.fieldBits else 0) |||
    (if r.admitsEos then eosBits e else 0) ||| (if r.admitsAct then a.bits else 0))

/-- The encoder writes the opcode and the fields of the command's row. -/
theorem encode_build {r : OpRow} (hr : r ∈ opTable) (o : Order) (g : Grid) (e : Bool) (a : Action) :
    encode (r.build o g e a) = fieldWord r o g e a := by
  have hrows : ∀ q ∈ opTable, encode (q.build o g e a) = fieldWord q o g e a := by
    simp [opTable, plainRow, ordRow, actRow, splitRow, encode, fieldWord, BitVec.or_assoc]
  exact hrows r hr

section
variable (w : Word)

theorem and_opcode : w &&& 0xFF = (w.extractLsb' 0 8).setWidth 32 := by
  apply BitVec.eq_of_getLsbD_eq
  intro i hi
  interval_cases i <;> simp

theorem and_order : w &&& 0x100 = (wordOrder w).bits := by
  rw [wordOrder, show (0x100 : Word) = BitVec.twoPow 32 8 from rfl, BitVec.and_twoPow]
  split <;> rfl

theorem and_grid : w &&& 0x200 = (wordGrid w).fieldBits := by
  rw [wordGrid, show (0x200 : Word) = BitVec.twoPow 32 9 from rfl, BitVec.and_twoPow]
  split <;> rfl

theorem and_eos : w &&& 0x400 = eosBits (wordEos w) := by
  rw [wordEos, show (0x400 : Word) = BitVec.twoPow 32 10 from rfl, BitVec.and_twoPow, eosBits]
  split <;> rfl

/-- ACT is bits 12 and 11. -/
theorem act_eq_bits : w.extractLsb' 11 2 = BitVec.ofBool (w.getLsbD 12) ++ BitVec.ofBool (w.getLsbD 11) := by
  apply BitVec.eq_of_getLsbD_eq
  intro i hi
  interval_cases i <;> simp <;> cases w[11] <;> cases w[12] <;> rfl

variable {w}

theorem and_act (h : w.extractLsb' 11 2 ≠ 3) : w &&& 0x1800 = (wordAction w).bits := by
  rw [act_eq_bits] at h
  rw [wordAction, act_eq_bits,
    show (0x1800 : Word) = BitVec.twoPow 32 11 ||| BitVec.twoPow 32 12 from rfl, BitVec.and_or_distrib_left,
    BitVec.and_twoPow, BitVec.and_twoPow]
  revert h
  cases w.getLsbD 11 <;> cases w.getLsbD 12 <;> decide

/-- A word that a row admits has no bit outside OP and the row's fields. -/
theorem eq_or_of_no_other_bits {m : Word} (h : w &&& ~~~m &&& 0xFFFFFF00 = 0) : w = w &&& 0xFF ||| w &&& m := by
  apply BitVec.eq_of_getLsbD_eq
  intro i hi
  have hbit := congrArg (fun x => BitVec.getLsbD x i) h
  rw [show (0xFFFFFF00 : Word) = ~~~0xFF from rfl] at hbit
  simp only [BitVec.getLsbD_and, BitVec.getLsbD_or, BitVec.getLsbD_not, hi] at hbit ⊢
  revert hbit
  cases w.getLsbD i <;> cases m.getLsbD i <;> simp

/-- The bits of a word under its row's mask are the row's fields of the word. -/
theorem and_admitMask {r : OpRow} (h : r.admitsAct = true → w.extractLsb' 11 2 ≠ 3) :
    w &&& r.admitMask = (if r.admitsOrd then (wordOrder w).bits else 0) |||
      (if r.admitsG16 then (wordGrid w).fieldBits else 0) ||| (if r.admitsEos then eosBits (wordEos w) else 0) |||
      (if r.admitsAct then (wordAction w).bits else 0) := by
  have hact : w &&& (if r.admitsAct then 0x1800 else 0) = if r.admitsAct then (wordAction w).bits else 0 := by
    split
    · next ha => exact and_act (h ha)
    · exact BitVec.and_zero
  have hand (p : Bool) (x : Word) : w &&& (if p then x else 0) = if p then w &&& x else 0 := by
    split
    · rfl
    · exact BitVec.and_zero
  rw [OpRow.admitMask, BitVec.and_or_distrib_left, hact, BitVec.and_or_distrib_left, BitVec.and_or_distrib_left]
  simp only [hand, and_order, and_grid, and_eos]

/-- A word that its row admits is made of the row's opcode and the word's own fields. -/
theorem eq_fieldWord {r : OpRow} (hrow : wordRow w = some r) (hadm : Admits r w) :
    w = fieldWord r (wordOrder w) (wordGrid w) (wordEos w) (wordAction w) := by
  obtain ⟨hbits, hact⟩ := hadm
  rw [fieldWord, ← (wordRow_eq_some_iff.mp hrow).2, ← and_opcode,
    ← and_admitMask (r := r) fun ha h3 => hact ⟨ha, h3⟩]
  exact eq_or_of_no_other_bits hbits

/-- The encoder gives back the word a command was decoded from. -/
theorem encode_of_decode {i : Instr} (h : decode w = .ok i) : encode i = w := by
  obtain ⟨r, hrow, hadm, rfl⟩ := decode_eq_ok_iff.mp h
  rw [encode_build (wordRow_eq_some_iff.mp hrow).1, ← eq_fieldWord hrow hadm]

end

/-- The decoder gives back every command the encoder writes, with every field at every value. -/
@[simp] theorem decode_encode (i : Instr) : decode (encode i) = .ok i := by
  cases i with
  | setfmt a | setcrclist a | setlenlist a | calclen a | calccrc a | build a | verify a => cases a <;> rfl
  | write o | pack8 o | pack16 o | crc16 o => cases o <;> rfl
  | countbit g => cases g <;> rfl
  | check o g => cases o <;> cases g <;> rfl
  | splitse e a | splitlen e a => cases e <;> cases a <;> rfl
  | _ => rfl

/-! ### The obligations -/

/-- Settles O1: either direction is one of the two round trips. -/
theorem decodeIsInverseOfEncode : Obligations.DecodeIsInverseOfEncode := fun _ i =>
  ⟨encode_of_decode, fun h => h ▸ decode_encode i⟩

/-- Settles O2: seven of the words are encodings; ACT = 3 is refused. -/
theorem writtenWordsDecode : Obligations.WrittenWordsDecode := by
  refine ⟨?_, ?_, ?_, ?_, ?_, ?_, ?_, ?_⟩ <;> rfl

/-- Settles O4. -/
theorem stepRunsDecodedCommand : Obligations.StepRunsDecodedCommand := fun _ _ _ _ hp hd => step_of_decode_ok hp hd

end Sys2Proof.Proofs.Words
end

section
/-! PROOFS. What a command does to the machine (spec/46_control.md R800; spec/20_memory.md R88). A SET command or COMMIT
is a register write behind its gate (`exec_configuring`); every other command but STATUS and RESET is an answer behind its
gate (`exec_answering`). The registers and the operand record alone decide both. -/

namespace Sys2Proof.Proofs.Commands

open Sys2Proof.Machine Sys2Proof.Proofs.Exceptions

/-! ### The answers -/

/-- An answer that needs action a's template. -/
def templateAnswer (s : State) (a : Action) (b : Template → Except Status Result) : Except Status Result :=
  match s.template.get a with
  | none => .error .notCfg
  | some t => b t

/-- What a command answers for operand record o; none for the SET commands, COMMIT, STATUS and RESET. -/
def answer (s : State) (o : Operands) : Instr → Option (Except Status Result)
  | .type => some (o.record.kind.map fun k => { kind := some k.code })
  | .lenbit => some ((lenBit o.val).map fun n => { n := some n })
  | .write ord => some ((writeValue ord o.val).map fun bs => { bytes := some bs })
  | .check ord grid => some (checkBody ord (gridBits grid) o)
  | .hexdec => some ((hexDec o.text).map fun bs => { bytes := some bs })
  | .durparse => some (.ok { dur := some (BitVec.ofInt 64 (durParse o.text)) })
  | .countbit grid => some ((countBits (gridBits grid) o.vals).map fun n => { n := some n })
  | .pack8 ord => some ((pack8Bytes ord o.vals).map fun bs => { bytes := some bs })
  | .pack16 ord => some ((pack16Bytes ord o.vals).map fun bs => { bytes := some bs })
  | .splitse eos a => some (templateAnswer s a fun t =>
      if t.lenDriven then .error .strategy else (splitSE t s.maxFrame o.buf eos).toExcept)
  | .splitlen eos a => some (templateAnswer s a fun t =>
      if t.lenDriven then (splitLen s t o.buf eos).toExcept else .error .strategy)
  | .stuff => some (.ok { bytes := some (stuffing s.rule o.buf) })
  | .unstuff => some (.ok { bytes := some (unstuffing s.rule o.buf) })
  | .mod256 => some (.ok { bytes := some [mod256 o.buf] })
  | .crc16 ord => some (.ok { bytes := some (crc16Bytes ord o.buf) })
  | .chksum => some (.ok { bytes := some (chk s o.buf) })
  | .calclen a => some ((calcLen s a o.buf).map fun n => { n := some n })
  | .calccrc a => some ((calcCrc s a o.buf o.lenval).map fun bs => { bytes := some bs })
  | .build a => some (templateAnswer s a fun _ => (buildFrame s a o.buf).map fun bs => { bytes := some bs })
  | .verify a => some ((calcCrc s a o.buf o.lenval).map fun want => { report := some (verifyReport s want o.buf2) })
  | _ => none

/-- The gate of a command that answers: E_FAULTED, and E_NOT_CFG where it needs the configuration (R800). -/
def answerGate (s : State) (i : Instr) (b : Except Status Result) : Out :=
  if needsCommit i then s.configured b else s.free b

section
variable {s t : State} {i : Instr} {b : Except Status Result} {r : Result} {c : Status}

/-- A command that answers does so behind its gate, and does nothing else. -/
theorem exec_answering (h : answer s s.operands i = some b) : exec i s = answerGate s i b := by
  cases i with
  | setconst | setstaff | setcrc | setlen | setfmt _ | setcrclist _ | setlenlist _ | setmax | commit | status | reset =>
    cases h
  | check _ _ | durparse | mod256 | crc16 _ | stuff | unstuff | chksum | splitse _ _ | splitlen _ _ => cases h; rfl
  | type | lenbit | write _ | hexdec | countbit _ | pack8 _ | pack16 _ =>
    cases h
    refine congrArg s.free ?_
    split <;> next h => rw [h]; rfl
  | calclen _ | calccrc _ | verify _ =>
    cases h
    refine congrArg s.configured ?_
    split <;> next h => rw [h]; rfl
  | build a =>
    cases h
    refine congrArg (s.withTemplate a) (funext fun _ => ?_)
    split <;> next h => rw [h]; rfl

/-- The commands that are no register write, and neither STATUS nor RESET, are those that answer. -/
theorem exists_answer (s : State) (o : Operands) (hi : isConfiguring i = false) (hstatus : i ≠ .status)
    (hreset : i ≠ .reset) : ∃ b, answer s o i = some b := by
  cases i with
  | status => exact absurd rfl hstatus
  | reset => exact absurd rfl hreset
  | setconst | setstaff | setcrc | setlen | setfmt _ | setcrclist _ | setlenlist _ | setmax | commit => cases hi
  | _ => exact ⟨_, rfl⟩

theorem ne_commit_of_answer {o : Operands} (h : answer s o i = some b) : i ≠ .commit := by
  rintro rfl
  cases h

/-- A command other than COMMIT that raises a status changes no register (R901, R904). -/
theorem raise_eq_ended (hexec : exec i s = .next (s.raise c)) (hi : i ≠ .commit) :
    s.raise c = s.ended { status := c } := by
  refine State.raise_of_not_fatal s c (Bool.eq_false_iff.mpr fun hfatal => ?_)
  exact hi (exec_fatal hexec (by rwa [State.raise_result])).1

/-- The gate is open: no fault, and the configuration committed where it is needed. -/
abbrev Passes (s : State) (i : Instr) : Prop := s.faulted = false ∧ (needsCommit i = true → s.committed = true)

theorem answerGate_of_passes (h : Passes s i) (b : Except Status Result) : answerGate s i b = s.respond b := by
  obtain ⟨hf, hc⟩ := h
  unfold answerGate
  split
  · next hneeds => exact State.configured_of_committed hf (hc hneeds) b
  · exact State.free_of_ok hf b

/-- A command that passes its gate and answers r ends with r. -/
theorem exec_of_answer_ok (hp : Passes s i) (h : answer s s.operands i = some (.ok r)) :
    exec i s = .next (s.ended r) := by
  rw [exec_answering h, answerGate_of_passes hp]
  rfl

/-- A command that passes its gate and raises c ends with c and changes no register. -/
theorem exec_of_answer_error (hp : Passes s i) (h : answer s s.operands i = some (.error c)) :
    exec i s = .next (s.ended { status := c }) := by
  have hexec : exec i s = .next (s.raise c) := by
    rw [exec_answering h, answerGate_of_passes hp]
    rfl
  rw [hexec, raise_eq_ended hexec (ne_commit_of_answer h)]

/-- The result record a command ends with, having passed its gate. -/
def resultOf : Except Status Result → Result
  | .ok r => r
  | .error c => { status := c }

/-- A command that passes its gate ends with its answer's result record. -/
theorem exec_of_answer (hp : Passes s i) (h : answer s s.operands i = some b) :
    exec i s = .next (s.ended (resultOf b)) := by
  cases b with
  | ok r => exact exec_of_answer_ok hp h
  | error c => exact exec_of_answer_error hp h

/-- A command that answers changes nothing but the result record, whatever it ends with. -/
theorem exec_answering_ended (h : answer s s.operands i = some b) (hexec : exec i s = .next t) :
    t = s.ended t.result := by
  have hraise {c : Status} (ht : t = s.raise c) : t = s.ended t.result := by
    subst ht
    rw [State.raise_result]
    exact raise_eq_ended hexec (ne_commit_of_answer h)
  rw [exec_answering h, answerGate] at hexec
  split at hexec
  · obtain ⟨-, ht⟩ | ⟨-, -, ht⟩ | ⟨-, -, ⟨r, -, rfl⟩ | ⟨c, -, ht⟩⟩ := State.configured_next hexec
    · exact hraise ht
    · exact hraise ht
    · rfl
    · exact hraise ht
  · obtain ⟨-, ht⟩ | ⟨-, ⟨r, -, rfl⟩ | ⟨c, -, ht⟩⟩ := State.free_next hexec
    · exact hraise ht
    · rfl
    · exact hraise ht

/-- A command that answers ends with a next state. -/
theorem exists_answerGate (s : State) (i : Instr) (b : Except Status Result) : ∃ t, answerGate s i b = .next t := by
  have hrespond : ∃ t, s.respond b = .next t := by cases b <;> exact ⟨_, rfl⟩
  unfold answerGate State.configured State.free
  split_ifs <;> first | exact hrespond | exact ⟨_, rfl⟩

theorem exec_reset (s : State) : exec .reset s = .next (s.resetRegisters.finish {}) := rfl

end

/-! ### The register writes -/

/-- What a SET command or COMMIT writes. -/
inductive Write where
  | const (k : Nat) (bs : Buffer)
  | staff (w : Word) (p : BitVec 256)
  | crc (w : Word)
  | len (w : Word)
  | max (w : Word)
  | fmt (a : Action) (l : List Byte)
  | crcList (a : Action) (l : List Byte)
  | lenList (a : Action) (l : List Byte)
  | lock (t : PerAction (Option Template))

/-- The state with the registers written. -/
def Write.apply (s : State) : Write → State
  | .const k bs => s.setConst k bs
  | .staff w p => { s with cfgStaff := w, cfgPat := p }
  | .crc w => { s with cfgCrc := w }
  | .len w => { s with cfgLen := w }
  | .max w => { s with cfgMax := w }
  | .fmt a l => { s with fmt := s.fmt.set a l }
  | .crcList a l => { s with crcList := s.crcList.set a l }
  | .lenList a l => { s with lenList := s.lenList.set a l }
  | .lock t => { s with template := t, ctrl := ctrlWord s.fcode true s.faulted }

/-- The write a SET command or COMMIT makes for operand record o, or the status it raises; none for the others. -/
def writeOf (s : State) (o : Operands) : Instr → Option (Except Status Write)
  | .setconst => some (if 127 < o.k then .error .operand else .ok (.const o.k o.buf))
  | .setstaff => some ((operandField 9 o.word).map (.staff · o.pat))
  | .setcrc => some ((operandField 4 o.word).map .crc)
  | .setlen => some ((operandField 7 o.word).map .len)
  | .setfmt a => some (.ok (.fmt a o.tokens))
  | .setcrclist a => some (.ok (.crcList a o.tokens))
  | .setlenlist a => some (.ok (.lenList a o.tokens))
  | .setmax => some (.ok (.max o.word))
  | .commit => some ((compiled s).map .lock)
  | _ => none

section
variable {s t : State} {i : Instr} {b : Except Status Write} {w : Write} {c : Status}

/-- A SET command or COMMIT makes its write behind the lock, and does nothing else. -/
theorem exec_configuring (h : writeOf s s.operands i = some b) : exec i s = s.unlocked (b.map (Write.apply s)) := by
  cases i with
  | setconst =>
    cases h
    refine congrArg s.unlocked ?_
    rw [setconstBody]
    split <;> rfl
  | setstaff | setcrc | setlen =>
    cases h
    refine congrArg s.unlocked ?_
    simp only [setstaffBody, setcrcBody, setlenBody]
    cases operandField _ s.operands.word <;> rfl
  | setfmt _ | setcrclist _ | setlenlist _ | setmax => cases h; rfl
  | commit =>
    cases h
    refine congrArg s.unlocked ?_
    rw [commitBody]
    cases compiled s <;> rfl
  | _ => cases h

theorem exists_write (s : State) (o : Operands) (hi : isConfiguring i = true) : ∃ b, writeOf s o i = some b := by
  cases i with
  | setconst | setstaff | setcrc | setlen | setfmt _ | setcrclist _ | setlenlist _ | setmax | commit => exact ⟨_, rfl⟩
  | _ => cases hi

/-- Behind an open lock the write is made and the command ends with OK. -/
theorem exec_of_write_ok (hf : s.faulted = false) (hc : s.committed = false)
    (h : writeOf s s.operands i = some (.ok w)) : exec i s = .next ((w.apply s).finish {}) := by
  rw [exec_configuring h, State.unlocked_of_open hf hc]
  rfl

/-- Behind an open lock a status is raised. -/
theorem exec_of_write_error (hf : s.faulted = false) (hc : s.committed = false)
    (h : writeOf s s.operands i = some (.error c)) : exec i s = .next (s.raise c) := by
  rw [exec_configuring h, State.unlocked_of_open hf hc]
  rfl

/-- A write leaves what the host holds. -/
theorem apply_host (s : State) (w : Write) :
    (w.apply s).result = s.result ∧ (w.apply s).pending = s.pending ∧ (w.apply s).loop = s.loop := by
  cases w with
  | const k bs => exact ⟨s.setConst_result k bs, s.setConst_pending k bs, s.setConst_loop k bs⟩
  | _ => exact ⟨rfl, rfl, rfl⟩

/-- The reserved bits a SET command lets through are zero, and COMMIT locks what it compiles. -/
def Write.Legal (s : State) : Write → Prop
  | .staff w _ => w.toNat < 2 ^ 9
  | .crc w => w.toNat < 2 ^ 4
  | .len w => w.toNat < 2 ^ 7
  | .lock t => compiled s = .ok t
  | _ => True

theorem write_legal {o : Operands} (h : writeOf s o i = some (.ok w)) : w.Legal s := by
  have hfield {n : Nat} {w v : Word} (hv : operandField n w = .ok v) : v.toNat < 2 ^ n := by
    unfold operandField at hv
    split at hv
    · next hlt =>
      cases hv
      rw [BitVec.toNat_setWidth, BitVec.extractLsb'_toNat, Nat.shiftRight_zero, Nat.mod_eq_of_lt hlt]
      exact (Nat.mod_le _ _).trans_lt hlt
    · cases hv
  cases i with
  | setconst =>
    simp only [writeOf, Option.some.injEq] at h
    split at h <;> cases h
    trivial
  | setstaff =>
    cases hv : operandField 9 o.word <;> simp only [writeOf, hv, Except.map, Option.some.injEq] at h <;> cases h
    exact hfield hv
  | setcrc =>
    cases hv : operandField 4 o.word <;> simp only [writeOf, hv, Except.map, Option.some.injEq] at h <;> cases h
    exact hfield hv
  | setlen =>
    cases hv : operandField 7 o.word <;> simp only [writeOf, hv, Except.map, Option.some.injEq] at h <;> cases h
    exact hfield hv
  | setfmt _ | setcrclist _ | setlenlist _ | setmax => cases h; trivial
  | commit =>
    cases hv : compiled s <;> simp only [writeOf, hv, Except.map, Option.some.injEq] at h <;> cases h
    exact hv
  | _ => cases h

end

end Sys2Proof.Proofs.Commands
end

section
/-! PROOFS. The whole machine (spec/10_state.md R31, R47; spec/20_memory.md R88, R93; spec/60_exceptions.md R902, R904,
R908): every step completes, keeps the state consistent and, once committed, every register; and what the host holds is
not seen by a command. -/

namespace Sys2Proof.Proofs.Invariants

open Sys2Proof.Machine Sys2Proof.Proofs.Encoding Sys2Proof.Proofs.Words Sys2Proof.Proofs.Exceptions
  Sys2Proof.Proofs.Commands

/-! ### States that differ in what the host holds (R30, R31) -/

/-- The registers of s beside another result record, other issued commands and another host loop. -/
def withHost (s : State) (r : Result) (p : List Command) (l : ReadLoop) : State :=
  { s with result := r, pending := p, loop := l }

/-- States with the same registers differ in what the host holds, and in nothing else. -/
theorem sameRegisters_iff {s t : State} : s.SameRegisters t ↔ t = withHost s t.result t.pending t.loop := by
  cases s
  cases t
  simp only [State.SameRegisters, withHost, State.mk.injEq, and_true]
  constructor
  · rintro ⟨rfl, rfl, rfl, rfl, rfl, rfl, rfl, rfl, rfl, rfl, rfl⟩
    simp
  · rintro ⟨rfl, rfl, rfl, rfl, rfl, rfl, rfl, rfl, rfl, rfl, rfl⟩
    simp

theorem sameRegisters_withHost (s : State) (r : Result) (p : List Command) (l : ReadLoop) :
    s.SameRegisters (withHost s r p l) :=
  sameRegisters_iff.mpr rfl

theorem sameRegisters_ended (s : State) (r : Result) : s.SameRegisters (s.ended r) :=
  sameRegisters_withHost s r s.pending.tail s.loop

section
variable (s : State) (r : Result) (p : List Command) (l : ReadLoop)

theorem totalLen_withHost (a : Action) (data : Buffer) (ts : List Token) (n : Nat) :
    totalLen (withHost s r p l) a data ts n = totalLen s a data ts n := by
  induction ts generalizing n with
  | nil => rfl
  | cons t ts ih =>
    have htoken : tokenLen (withHost s r p l) a data t = tokenLen s a data t := by cases t <;> rfl
    simp only [totalLen, htoken, ih]

theorem calcLen_withHost (a : Action) (data : Buffer) : calcLen (withHost s r p l) a data = calcLen s a data := by
  unfold calcLen
  rw [totalLen_withHost]
  rfl

theorem buildFrame_withHost (a : Action) (data : Buffer) :
    buildFrame (withHost s r p l) a data = buildFrame s a data := by
  have hcrc (n : Nat) : calcCrc (withHost s r p l) a data n = calcCrc s a data n := rfl
  have hwire (n : Nat) (c : Buffer) : wireBytes (withHost s r p l) data n c = wireBytes s data n c := by
    funext t
    cases t <;> rfl
  unfold buildFrame buildLen
  simp only [calcLen_withHost, hcrc, hwire]
  rfl

theorem suffix_withHost (x : SplitCtx) (ts : List SuffixToken) (pos : Nat) :
    x.suffix (withHost s r p l) ts pos = x.suffix s ts pos := by
  induction ts generalizing pos with
  | nil => rfl
  | cons t ts ih =>
    have htoken : x.suffixToken (withHost s r p l) pos t = x.suffixToken s pos t := by cases t <;> rfl
    simp only [SplitCtx.suffix, htoken, ih]

theorem splitLen_withHost (t : Template) (buf : Buffer) (eos : Bool) :
    splitLen (withHost s r p l) t buf eos = splitLen s t buf eos := by
  have hlen (x : SplitCtx) : x.frameLength (withHost s r p l) t = x.frameLength s t := by
    unfold SplitCtx.frameLength
    simp only [suffix_withHost]
    rfl
  unfold splitLen seekLength
  rw [hlen]
  rfl

/-- A command answers from the registers and its operands. -/
theorem answer_withHost (o : Operands) (i : Instr) : answer (withHost s r p l) o i = answer s o i := by
  cases i with
  | calclen a => simp only [answer, calcLen_withHost]
  | build a => simp only [answer, buildFrame_withHost]; rfl
  | splitlen eos a => simp only [answer, splitLen_withHost]; rfl
  | _ => rfl

/-- A command issued alone with operand record o ends with what it answers for o. -/
theorem exec_issue {i : Instr} {o : Operands} {b : Except Status Result} (hp : Passes s i)
    (h : answer s o i = some b) : exec i (s.issue i o) = .next ((s.issue i o).ended (resultOf b)) :=
  exec_of_answer hp ((answer_withHost s s.result _ s.loop o i).trans h)

/-- A command that passes its gate answers one result record. -/
theorem answers_iff {i : Instr} {o : Operands} {b : Except Status Result} (hp : Passes s i)
    (h : answer s o i = some b) : s.Answers i o r ↔ resultOf b = r := by
  rw [State.Answers, exec_issue s hp h]
  constructor
  · intro heq
    exact congrArg State.result (Host.Outcome.next.inj heq)
  · rintro rfl
    rfl

/-- A SET command or COMMIT writes what the registers and its operands say. -/
theorem writeOf_withHost (o : Operands) (i : Instr) : writeOf (withHost s r p l) o i = writeOf s o i := by
  cases i <;> rfl

end

/-! ### The outcome beside another host (R31, R47, R88) -/

/-- The second outcome has the first one's result record and registers. -/
def Agrees (x y : Out) : Prop :=
  ∀ t, x = .next t → ∃ t', y = .next t' ∧ t'.result = t.result ∧ t.SameRegisters t'

theorem agrees_next {t t' : State} (hr : t'.result = t.result) (hs : t.SameRegisters t') :
    Agrees (.next t) (.next t') := by
  rintro u ⟨⟩
  exact ⟨t', rfl, hr, hs⟩

section
variable {s : State} {r : Result} {p : List Command} {l : ReadLoop}

theorem agrees_raise (c : Status) : Agrees (.next (s.raise c)) (.next ((withHost s r p l).raise c)) := by
  refine agrees_next (by simp) ?_
  unfold State.raise
  split <;> exact sameRegisters_withHost _ _ _ _

theorem agrees_respond (b : Except Status Result) : Agrees (s.respond b) ((withHost s r p l).respond b) := by
  cases b with
  | ok x => exact agrees_next rfl (sameRegisters_withHost _ _ _ _)
  | error c => exact agrees_raise c

theorem agrees_ite {q : Prop} [Decidable q] {x x' y y' : Out} (hx : Agrees x x') (hy : Agrees y y') :
    Agrees (if q then x else y) (if q then x' else y') := by
  split
  · exact hx
  · exact hy

theorem agrees_answerGate (i : Instr) (b : Except Status Result) :
    Agrees (answerGate s i b) (answerGate (withHost s r p l) i b) :=
  agrees_ite
    (agrees_ite (agrees_raise .faulted) (agrees_ite (agrees_respond b) (agrees_raise .notCfg)))
    (agrees_ite (agrees_raise .faulted) (agrees_respond b))

theorem apply_withHost (w : Write) : w.apply (withHost s r p l) = withHost (w.apply s) r p l := by
  cases w with
  | const k bs =>
    simp only [Write.apply, State.setConst]
    split <;> rfl
  | _ => rfl

theorem agrees_unlocked (b : Except Status Write) :
    Agrees (s.unlocked (b.map (Write.apply s)))
      ((withHost s r p l).unlocked (b.map (Write.apply (withHost s r p l)))) := by
  refine agrees_ite (agrees_raise .faulted) (agrees_ite (agrees_raise .locked) ?_)
  cases b with
  | ok w =>
    refine agrees_next (t' := (w.apply (withHost s r p l)).finish {}) rfl ?_
    rw [apply_withHost]
    exact sameRegisters_withHost _ _ _ _
  | error c => exact agrees_raise c

end

/-! ### Consistency (R34, R36, R37, R39, R43, R44, R93, R902) -/

section
variable {s t : State}

/-- Consistency is about the registers. -/
theorem consistent_of_sameRegisters (h : s.SameRegisters t) (hs : s.Consistent) : t.Consistent := by
  rw [sameRegisters_iff.mp h]
  exact hs

/-- A fatal status is COMMIT's, raised with nothing committed, so the fault fields become legal. -/
theorem raise_consistent {c : Status} (hs : s.Consistent) (hc : c.fatal = true → s.committed = false) :
    (s.raise c).Consistent := by
  obtain hfatal | hfatal := Bool.eq_false_or_eq_true c.fatal
  · obtain ⟨⟨hstaff, hcrc, hlen, -⟩, -, hcommit, hconsts⟩ := hs
    have hopen := hc hfatal
    obtain ⟨hfaulted, hfcode, hcommitted⟩ := raise_fields_of_fatal s hfatal
    have hcode : 0x20 ≤ c.code.toNat ∧ c.code.toNat ≤ 0x2C := by simpa [Status.fatal] using hfatal
    refine ⟨⟨by simpa, by simpa, by simpa, ?_⟩, ?_, ?_, ?_⟩
    · rw [State.raise_ctrl, if_pos hfatal]
      exact ctrlWord_lt _ _ _
    · rw [State.FaultLegal, if_pos hfaulted, hcommitted, hfcode]
      exact ⟨hopen, hcode⟩
    · rw [State.CommitLegal, hopen] at hcommit
      rw [State.CommitLegal, hcommitted, hopen]
      simpa using hcommit
    · rwa [State.ConstsLegal, State.raise_consts]
  · rw [State.raise_of_not_fatal s c hfatal]
    exact hs

theorem reset_consistent : State.reset.Consistent := by
  refine ⟨by decide, by decide, by decide, fun k _ => ?_⟩
  simp [State.reset]

theorem resetRegisters_consistent (s : State) : s.resetRegisters.Consistent :=
  consistent_of_sameRegisters (sameRegisters_withHost State.reset _ _ _) reset_consistent

/-- A write with nothing committed and no fault keeps the state consistent: the SET commands write legal registers and
leave the templates absent, and COMMIT's templates are those it compiles. -/
theorem apply_consistent {w : Write} (hs : s.Consistent) (hf : s.faulted = false) (hc : s.committed = false)
    (hw : w.Legal s) : (w.apply s).Consistent := by
  obtain ⟨⟨hstaff, hcrc, hlen, hctrl⟩, hfault, hcommit, hconsts⟩ := hs
  rw [State.CommitLegal, hc] at hcommit
  have hcommit : s.template = ⟨none, none, none⟩ := by simpa using hcommit
  have hlegal {t : State} (hctrl : t.ctrl = s.ctrl) (htemplate : t.template = s.template) :
      t.FaultLegal ∧ t.CommitLegal := by
    simp only [State.FaultLegal, State.CommitLegal, State.faulted, State.committed, State.fcode, hctrl, htemplate]
    refine ⟨hfault, ?_⟩
    rw [show s.ctrl.getLsbD 8 = false from hc]
    simpa using hcommit
  cases w with
  | const k bs =>
    refine ⟨?_, and_assoc.mp ⟨hlegal (s.setConst_ctrl k bs) (s.setConst_template k bs), fun j => ?_⟩⟩
    · rw [State.ReservedZero, Write.apply, State.setConst_cfgStaff, State.setConst_cfgCrc, State.setConst_cfgLen,
        State.setConst_ctrl]
      exact ⟨hstaff, hcrc, hlen, hctrl⟩
    · by_cases hk : k < Config.constSlots
      · simp only [Write.apply, State.setConst_consts s k bs hk, Fin.getElem_fin, Vector.getElem_set]
        split
        · exact nofun
        · exact hconsts j
      · simpa [Write.apply, State.setConst, hk] using hconsts j
  | staff w p => exact ⟨⟨hw, hcrc, hlen, hctrl⟩, and_assoc.mp ⟨hlegal rfl rfl, hconsts⟩⟩
  | crc w => exact ⟨⟨hstaff, hw, hlen, hctrl⟩, and_assoc.mp ⟨hlegal rfl rfl, hconsts⟩⟩
  | len w => exact ⟨⟨hstaff, hcrc, hw, hctrl⟩, and_assoc.mp ⟨hlegal rfl rfl, hconsts⟩⟩
  | max _ | fmt _ _ | crcList _ _ | lenList _ _ =>
    exact ⟨⟨hstaff, hcrc, hlen, hctrl⟩, and_assoc.mp ⟨hlegal rfl rfl, hconsts⟩⟩
  | lock t =>
    have hfaulted : ((Write.lock t).apply s).faulted = false := (ctrlWord_faulted _ _ _).trans hf
    have hcommitted : ((Write.lock t).apply s).committed = true := ctrlWord_committed _ _ _
    have hfcode : ((Write.lock t).apply s).fcode = s.fcode := ctrlWord_fcode _ _ _
    refine ⟨⟨hstaff, hcrc, hlen, ctrlWord_lt _ _ _⟩, ?_, ?_, hconsts⟩
    · rw [State.FaultLegal, hf] at hfault
      rw [State.FaultLegal, hfaulted, hfcode]
      exact hfault
    · have hcompiled : compiled ((Write.lock t).apply s) = .ok t := hw
      rw [State.CommitLegal, hcommitted, if_pos rfl, State.templatesAgree, hcompiled]
      exact decide_eq_true rfl

end

/-! ### A command, whichever it is -/

/-- Everything a command can do: end with a result record, raise a status, restore the reset registers, or write
registers behind the open lock. A fatal status is raised with nothing committed. -/
theorem exec_cases (i : Instr) (s : State) :
    (∃ r, exec i s = .next (s.ended r)) ∨
    (∃ c, (c.fatal = true → s.committed = false) ∧ exec i s = .next (s.raise c)) ∨
    (i = .reset ∧ exec i s = .next (s.resetRegisters.finish {})) ∨
    (∃ w : Write, s.faulted = false ∧ s.committed = false ∧ w.Legal s ∧ exec i s = .next ((w.apply s).finish {})) := by
  have hraised {c : Status} (h : exec i s = .next (s.raise c)) :
      ∃ c, (c.fatal = true → s.committed = false) ∧ exec i s = .next (s.raise c) :=
    ⟨c, fun hfatal => (exec_fatal h (by rwa [State.raise_result])).2.1, h⟩
  obtain rfl | hstatus := eq_or_ne i .status
  · exact .inl ⟨_, Control.exec_status s⟩
  obtain rfl | hreset := eq_or_ne i .reset
  · exact .inr (.inr (.inl ⟨rfl, exec_reset s⟩))
  obtain hi | hi := Bool.eq_false_or_eq_true (isConfiguring i)
  · obtain ⟨b, hb⟩ := exists_write s s.operands hi
    obtain hf | hf := Bool.eq_false_or_eq_true s.faulted
    · exact .inr (.inl (hraised (by rw [exec_configuring hb, State.unlocked, if_pos hf])))
    obtain hc | hc := Bool.eq_false_or_eq_true s.committed
    · exact .inr (.inl (hraised (by rw [exec_configuring hb, State.unlocked, if_neg (by simp [hf]), if_pos hc])))
    cases b with
    | ok w => exact .inr (.inr (.inr ⟨w, hf, hc, write_legal hb, exec_of_write_ok hf hc hb⟩))
    | error c => exact .inr (.inl (hraised (exec_of_write_error hf hc hb)))
  · obtain ⟨b, hb⟩ := exists_answer s s.operands hi hstatus hreset
    obtain ⟨t, ht⟩ := exists_answerGate s i b
    have hexec : exec i s = .next t := (exec_answering hb).trans ht
    exact .inl ⟨t.result, by rw [hexec, ← exec_answering_ended hb hexec]⟩

theorem exec_consistent {i : Instr} {s t : State} (hs : s.Consistent) (h : exec i s = .next t) : t.Consistent := by
  obtain ⟨r, he⟩ | ⟨c, hc, he⟩ | ⟨-, he⟩ | ⟨w, hf, hc, hw, he⟩ := exec_cases i s <;> cases h.symm.trans he
  · exact hs
  · exact raise_consistent hs hc
  · exact resetRegisters_consistent s
  · exact apply_consistent hs hf hc hw

/-! ### The obligations -/

/-- Settles O7. -/
theorem resetIsConsistent : Obligations.ResetIsConsistent := reset_consistent

/-- Settles O6: the host's turn keeps the registers, E_ILLEGAL is not fatal, and every command keeps the invariant. -/
theorem stepKeepsConsistent : Obligations.StepKeepsConsistent := by
  intro s t hs hstep
  obtain ⟨-, rfl⟩ | ⟨c, rest, e, -, -, rfl⟩ | ⟨c, rest, i, -, -, hexec⟩ := step_cases hstep
  · rw [State.hostStep_registers]
    exact hs
  · exact raise_consistent hs nofun
  · exact exec_consistent hs hexec

/-- Settles O5: each of a command's four ends is a next state that takes the command off the list. -/
theorem everyStepCompletes : Obligations.EveryStepCompletes := by
  have hexec (i : Instr) (s : State) : ∃ t, exec i s = .next t ∧ t.pending = s.pending.tail ∧ t.loop = s.loop := by
    obtain ⟨r, he⟩ | ⟨c, -, he⟩ | ⟨-, he⟩ | ⟨w, -, -, -, he⟩ := exec_cases i s
    · exact ⟨_, he, rfl, rfl⟩
    · exact ⟨_, he, s.raise_pending c, s.raise_loop c⟩
    · exact ⟨_, he, rfl, rfl⟩
    · obtain ⟨-, hpending, hloop⟩ := apply_host s w
      exact ⟨_, he, congrArg List.tail hpending, hloop⟩
  refine ⟨fun s => ?_, hexec⟩
  cases hp : s.pending with
  | nil => exact ⟨s.hostStep, by simp [step, hp]⟩
  | cons c rest =>
    cases hd : decode c.word with
    | ok i =>
      obtain ⟨t, ht, -⟩ := hexec i s
      exact ⟨t, (step_of_decode_ok hp hd).trans ht⟩
    | error e => exact ⟨_, step_of_decode_error hp hd⟩

/-- Settles O9: behind the lock a command can only answer, raise a status that is not fatal, or be RESET. -/
theorem committedRegistersAreLocked : Obligations.CommittedRegistersAreLocked := by
  intro s t hcommitted hstep
  obtain ⟨-, rfl⟩ | ⟨c, rest, e, -, -, rfl⟩ | ⟨c, rest, i, hp, hd, hexec⟩ := step_cases hstep
  · rw [State.hostStep_registers]
    exact .inl (sameRegisters_withHost s _ _ _)
  · rw [raise_illegal]
    exact .inl (sameRegisters_ended s _)
  · obtain ⟨r, he⟩ | ⟨d, hfatal, he⟩ | ⟨rfl, -⟩ | ⟨w, -, hopen, -⟩ := exec_cases i s
    · cases hexec.symm.trans he
      exact .inl (sameRegisters_ended s r)
    · cases hexec.symm.trans he
      rw [State.raise_of_not_fatal s d (Bool.eq_false_iff.mpr fun hd => ?_)]
      · exact .inl (sameRegisters_ended s _)
      · exact Bool.noConfusion (hcommitted.symm.trans (hfatal hd))
    · exact .inr ⟨c, rest, hp, (encode_of_decode hd).symm⟩
    · cases hcommitted.symm.trans hopen

/-- Settles O14: such a command is STATUS or answers. -/
theorem otherCommandsKeepRegisters : Obligations.OtherCommandsKeepRegisters := by
  intro i s t hi hreset hexec
  obtain rfl | hstatus := eq_or_ne i .status
  · cases hexec
    rfl
  · obtain ⟨b, hb⟩ := exists_answer s s.operands hi hstatus hreset
    exact exec_answering_ended hb hexec

/-- Settles O15: the gates, the answers and the writes are those of the registers and the operand record. -/
theorem commandsSeeRegistersAndOperandsOnly : Obligations.CommandsSeeRegistersAndOperandsOnly := by
  intro i s s' t hregs ho hexec
  obtain ⟨r, p, l, rfl⟩ : ∃ r p l, s' = withHost s r p l := ⟨_, _, _, sameRegisters_iff.mp hregs⟩
  suffices h : Agrees (exec i s) (exec i (withHost s r p l)) from h t hexec
  obtain rfl | hstatus := eq_or_ne i .status
  · exact agrees_next rfl (sameRegisters_withHost s _ _ _)
  obtain rfl | hreset := eq_or_ne i .reset
  · exact agrees_next rfl (sameRegisters_withHost _ _ _ _)
  obtain hi | hi := Bool.eq_false_or_eq_true (isConfiguring i)
  · obtain ⟨b, hb⟩ := exists_write s s.operands hi
    rw [exec_configuring hb, exec_configuring (b := b) (by rw [writeOf_withHost, ← ho, hb])]
    exact agrees_unlocked b
  · obtain ⟨b, hb⟩ := exists_answer s s.operands hi hstatus hreset
    rw [exec_answering hb, exec_answering (b := b) (by rw [answer_withHost, ← ho, hb])]
    exact agrees_answerGate i b

/-- Settles O16: RESET writes the registers of the state after power-on. -/
theorem resetRestoresEveryRegister : Obligations.ResetRestoresEveryRegister := by
  have hreset : State.reset.AtReset :=
    ⟨rfl, rfl, rfl, rfl, rfl, fun k => by simp [State.reset], rfl, rfl, rfl, rfl, rfl⟩
  exact ⟨hreset, fun s => ⟨_, exec_reset s, hreset, rfl, rfl, rfl⟩⟩

end Sys2Proof.Proofs.Invariants
end

section
/-! PROOFS. The SET commands (spec/46_control.md R801 to R808): the register each one writes, the reserved bits three of
them refuse, and the fields those registers hold (spec/10_state.md R34 to R38, R46). -/

namespace Sys2Proof.Proofs.Settings

open Sys2Proof.Machine Sys2Proof.Proofs.Commands

/-! ### Operand words (R802 to R804) -/

/-- A word without reserved bits is stored as it is; any other raises E_OPERAND. -/
theorem operandField_eq (n : Nat) (w : Word) :
    operandField n w = if w.toNat < 2 ^ n then .ok w else .error .operand := by
  unfold operandField
  refine ite_congr rfl (fun hlt => congrArg _ (BitVec.eq_of_toNat_eq ?_)) fun _ => rfl
  rw [BitVec.toNat_setWidth, BitVec.extractLsb'_toNat, Nat.shiftRight_zero, Nat.mod_eq_of_lt hlt,
    Nat.mod_eq_of_lt w.isLt]

section
variable {s t : State} (hf : s.faulted = false) (hc : s.committed = false)
include hf hc

/-- A SET command that stores a word of n bits writes it, or raises E_OPERAND. -/
theorem exec_setWord {i : Instr} {n : Nat} {f : Word → Write}
    (hi : writeOf s s.operands i = some ((operandField n s.operands.word).map f)) :
    exec i s = .next (if s.operands.word.toNat < 2 ^ n then ((f s.operands.word).apply s).finish {}
      else s.ended { status := .operand }) := by
  rw [operandField_eq] at hi
  split
  · next hlt => exact exec_of_write_ok hf hc (by rw [hi, if_pos hlt]; rfl)
  · next hge => exact exec_of_write_error (c := .operand) hf hc (by rw [hi, if_neg hge]; rfl)

/-- A SET command that ends with OK has stored its operand word. -/
theorem stored_of_ok {i : Instr} {n : Nat} {f : Word → Write}
    (hi : writeOf s s.operands i = some ((operandField n s.operands.word).map f)) (hexec : exec i s = .next t)
    (hok : t.result.status = .ok) : t = ((f s.operands.word).apply s).finish {} := by
  cases hexec.symm.trans (exec_setWord hf hc hi)
  split
  · rfl
  · next hge =>
    rw [if_neg hge] at hok
    cases hok

end

/-! ### The obligations -/

/-- Settles O18: one write into the constant table, or E_OPERAND. -/
theorem setconstWritesItsSlot : Obligations.SetconstWritesItsSlot := by
  intro s hf hc
  constructor
  · intro hk
    have hk' : s.operands.k < Config.constSlots := Nat.lt_succ_of_le hk
    have hwrite : writeOf s s.operands .setconst = some (.ok (.const s.operands.k s.operands.buf)) :=
      congrArg some (if_neg hk.not_gt)
    refine ⟨_, exec_of_write_ok hf hc hwrite, ?_, fun j => ?_⟩
    · simp [Write.apply, State.setConst, hk', State.finish]
    · simp [Write.apply, State.setConst_consts s _ _ hk', Vector.getElem_set, eq_comm]
  · intro hk
    exact exec_of_write_error (c := .operand) hf hc (congrArg some (if_pos hk))

/-- Settles O19: the registers written are the operand word's, so their fields are its bits. -/
theorem setWordCommandsWriteRegisters : Obligations.SetWordCommandsWriteRegisters := by
  intro s hf hc
  have hmax : exec .setmax s = .next (((Write.max s.operands.word).apply s).finish {}) := exec_of_write_ok hf hc rfl
  refine ⟨exec_setWord (f := (.staff · s.operands.pat)) hf hc rfl, exec_setWord (f := .crc) hf hc rfl,
    exec_setWord (f := .len) hf hc rfl, hmax, fun t ht hok => ?_, fun t ht hok => ?_,
    fun t ht hok => ?_, fun t ht => ?_⟩
  · cases stored_of_ok (f := (.staff · s.operands.pat)) hf hc rfl ht hok
    exact ⟨by simp [Write.apply, State.esc], rfl, rfl⟩
  · cases stored_of_ok (f := .crc) hf hc rfl ht hok
    exact ⟨by simp [Write.apply, State.alg], rfl, rfl⟩
  · cases stored_of_ok (f := .len) hf hc rfl ht hok
    exact ⟨by simp [Write.apply, State.lenWidth], rfl, rfl, rfl⟩
  · cases ht.symm.trans hmax
    rfl

/-- Settles O20: one write into the action's list. -/
theorem setListCommandsWriteLists : Obligations.SetListCommandsWriteLists := by
  intro s a hf hc
  have hget (p : PerAction (List Byte)) (b : Action) :
      (p.set a s.operands.tokens).get b = if b = a then s.operands.tokens else p.get b := by
    split
    · next h => rw [h, PerAction.get_set_same]
    · next h => exact PerAction.get_set_other _ _ _ _ h
  exact ⟨⟨_, exec_of_write_ok hf hc rfl, rfl, hget s.fmt⟩, ⟨_, exec_of_write_ok hf hc rfl, rfl, hget s.crcList⟩,
    ⟨_, exec_of_write_ok hf hc rfl, rfl, hget s.lenList⟩⟩

end Sys2Proof.Proofs.Settings
end

section
/-! PROOFS. Typed values (spec/40_codec.md R200, R210, R220, R221; spec/00_scope.md R10): a record's kind, a value's width
and bytes, and the number that bytes of either order read back as. -/

namespace Sys2Proof.Proofs.Values

open Sys2Proof.Machine Sys2Proof.Proofs.Commands

/-! ### Bytes and numbers (R10) -/

@[simp] theorem bytesLE_length (n x : Nat) : (bytesLE n x).length = n := by
  induction n generalizing x with
  | zero => rfl
  | succ n ih => simp [bytesLE, ih]

@[simp] theorem bytesOf_length (ord : Order) (n : Nat) (x : Int) : (bytesOf ord n x).length = n := by
  cases ord <;> simp [bytesOf]

theorem uintLE_bytesLE (n x : Nat) : uintLE (bytesLE n x) = x % 256 ^ n := by
  induction n generalizing x with
  | zero => simp [bytesLE, uintLE, Nat.mod_one]
  | succ n ih =>
    have hsplit : x % 256 ^ (n + 1) = x % 256 + 256 * (x / 256 % 256 ^ n) := by
      rw [Nat.pow_succ', Nat.mod_mul]
    simp [bytesLE, uintLE, ih, hsplit]

theorem two_pow_eight_mul (n : Nat) : 2 ^ (8 * n) = 256 ^ n := Nat.pow_mul 2 8 n

/-- Bytes of a number read back, in the same order, as the number modulo 2^(8n). -/
theorem uintOf_bytesOf (ord : Order) (n : Nat) (x : Int) : (uintOf ord (bytesOf ord n x) : Int) = x % 2 ^ (8 * n) := by
  have hpos : (0 : Int) < 2 ^ (8 * n) := by positivity
  have hnonneg : 0 ≤ x % 2 ^ (8 * n) := Int.emod_nonneg _ hpos.ne'
  have hlt : (x % 2 ^ (8 * n)).toNat < 256 ^ n := by
    have := Int.emod_lt_of_pos x hpos
    rw [← two_pow_eight_mul]
    zify
    omega
  have hread : uintLE (bytesLE n (x % 2 ^ (8 * n)).toNat) = (x % 2 ^ (8 * n)).toNat := by
    rw [uintLE_bytesLE, Nat.mod_eq_of_lt hlt]
  cases ord <;> simp only [uintOf, bytesOf, List.reverse_reverse, hread] <;> exact Int.toNat_of_nonneg hnonneg

/-- A natural number below 2^(8n) reads back as itself. -/
theorem uintOf_bytesOf_of_lt {n x : Nat} (ord : Order) (h : x < 2 ^ (8 * n)) : uintOf ord (bytesOf ord n x) = x := by
  have hread := uintOf_bytesOf ord n x
  rw [Int.emod_eq_of_lt (by omega) (by exact_mod_cast h)] at hread
  exact_mod_cast hread

/-- A number in two's complement range reads back as itself. -/
theorem sintOf_bytesOf {n : Nat} {x : Int} (ord : Order) (hn : 0 < n) (hlo : -2 ^ (8 * n - 1) ≤ x)
    (hhi : x < 2 ^ (8 * n - 1)) : sintOf ord (bytesOf ord n x) = x := by
  have hdouble : (2 : Int) ^ (8 * n) = 2 * 2 ^ (8 * n - 1) := by
    rw [← pow_succ', Nat.sub_add_cancel (by omega)]
  have hread := uintOf_bytesOf ord n x
  have hcond : 2 * uintOf ord (bytesOf ord n x) < 2 ^ (8 * n) ↔ 0 ≤ x := by
    zify
    rw [hread]
    obtain hx | hx := lt_or_ge x 0
    · rw [Int.emod_eq_add_self_emod, Int.emod_eq_of_lt (by omega) (by omega)]
      omega
    · rw [Int.emod_eq_of_lt hx (by omega)]
      omega
  unfold sintOf
  rw [bytesOf_length, hread]
  obtain hx | hx := lt_or_ge x 0
  · rw [if_neg (by rw [hcond]; omega), Int.emod_eq_add_self_emod, Int.emod_eq_of_lt (by omega) (by omega)]
    omega
  · rw [if_pos (hcond.mpr hx), Int.emod_eq_of_lt hx (by omega)]

/-! ### Kinds and widths (R48, R200, R210) -/

theorem width_eq_eight_mul (k : IntKind) : k.width = 8 * (k.width / 8) := by cases k <;> rfl

theorem fltWidth_eq_eight_mul (k : FltKind) : k.width = 8 * (k.width / 8) := by cases k <;> rfl

/-- Bytes of an integer in its kind's range read back, as the kind's signedness says, as that integer (R10, R234). -/
theorem readInt_bytesOf {k : IntKind} {x : Int} (ord : Order) (h : k.inRange x = true) :
    (if k.signed then sintOf ord (bytesOf ord (k.width / 8) x) else (uintOf ord (bytesOf ord (k.width / 8) x) : Int)) =
      x := by
  cases k with
  | i8 | i16 | i32 | i64 =>
    simp only [IntKind.inRange, Bool.and_eq_true, decide_eq_true_iff] at h
    exact sintOf_bytesOf ord (by decide) h.1 h.2
  | u8 | u16 | u32 | u64 =>
    simp only [IntKind.inRange, Bool.and_eq_true, decide_eq_true_iff] at h
    exact (uintOf_bytesOf ord _ x).trans (Int.emod_eq_of_lt h.1 h.2)

/-- Bytes of a float pattern in its kind's range read back as that pattern. -/
theorem uintOf_bytesOf_flt {k : FltKind} {b : Nat} (ord : Order) (h : k.inRange b = true) :
    uintOf ord (bytesOf ord (k.width / 8) b) = b := by
  cases k <;> exact uintOf_bytesOf_of_lt ord (of_decide_eq_true h)

theorem family_code {α : Type} (k : NumKind) (p : Presence α) :
    (p.family k).map Kind.code = numericCode k.code p := by
  unfold Presence.family numericCode
  split_ifs <;> rfl

/-- The families R200 collects have the codes R105 lists for the fields present. -/
theorem families_code (r : RawRec) : r.families.map Kind.code = codesPresent r := by
  have hflag (b : Bool) (k : Kind) : (if b then [k] else []).map Kind.code = if b then [k.code] else [] := by
    cases b <;> rfl
  have hpresent (b : Bool) (c : BitVec 5) (l : List (Bool × BitVec 5)) :
      ((b, c) :: l).filterMap (fun x => if x.1 then some x.2 else none) =
        (if b then [c] else []) ++ l.filterMap fun x => if x.1 then some x.2 else none := by
    cases b <;> rfl
  simp only [RawRec.families, codesPresent, List.map_append, family_code, hflag, hpresent, List.flatten_cons,
    List.flatten_nil, List.filterMap_nil, List.append_nil, List.append_assoc]
  rfl

/-- The width of a value with bytes is that of what WRITE writes, but for a boolean. -/
theorem lenBit_of_write {ord : Order} {v : Value} {bs : Buffer} (h : writeValue ord v = .ok bs) (hv : ∀ b, v ≠ .bool b) :
    lenBit v = .ok (8 * bs.length) := by
  cases v with
  | int k x => cases h; simp [lenBit, ← width_eq_eight_mul]
  | flt k b => cases h; simp [lenBit, ← fltWidth_eq_eight_mul]
  | bool b => exact absurd rfl (hv b)
  | str t => cases h; rfl
  | bytes t => exact Check.lenBit_bytes_of_ok h
  | empty | rngInt _ _ _ | rngFlt _ _ _ | time _ | err _ => cases h

/-! ### The obligations -/

/-- Settles O21: the codes of the families decide. -/
theorem typeResolvesByPresence : Obligations.TypeResolvesByPresence := by
  intro s hf
  have hp : Passes s .type := ⟨hf, nofun⟩
  rw [← families_code]
  obtain hnil | ⟨k, hone⟩ | ⟨j, k, l, hmany⟩ :
      s.operands.record.families = [] ∨ (∃ k, s.operands.record.families = [k]) ∨
        ∃ j k l, s.operands.record.families = j :: k :: l := by
    rcases s.operands.record.families with - | ⟨j, - | ⟨k, l⟩⟩ <;> simp
  · rw [hnil]
    exact exec_of_answer_ok hp (by simp only [answer, RawRec.kind, hnil]; rfl)
  · rw [hone]
    exact exec_of_answer_ok hp (by simp only [answer, RawRec.kind, hone]; rfl)
  · rw [hmany]
    exact exec_of_answer_error hp (by simp only [answer, RawRec.kind, hmany]; rfl)

/-- Settles O22, by the value's variant. -/
theorem lenbitMatchesWrittenLength : Obligations.LenbitMatchesWrittenLength := by
  intro s hf
  have hp : Passes s .lenbit := ⟨hf, nofun⟩
  have hlen {n : Nat} (h : lenBit s.operands.val = .ok n) : exec .lenbit s = .next (s.ended { n := some n }) :=
    exec_of_answer_ok hp (by simp only [answer, h]; rfl)
  refine ⟨fun ord bs hw => hlen ?_, fun k lo hi ord bs hv hw => hlen ?_, fun k lo hi ord bs hv hw => hlen ?_,
    fun hv => hlen ?_, fun t hv => hlen ?_, fun t hv => hlen ?_, fun t e hv ht => ?_⟩
  · cases hv : s.operands.val with
    | bool b => rfl
    | _ => exact lenBit_of_write (hv ▸ hw) nofun
  · rw [hv]
    exact lenBit_of_write (v := .int k 0) hw nofun
  · rw [hv]
    exact lenBit_of_write (v := .flt k 0) hw nofun
  · rw [hv]; rfl
  · rw [hv]; rfl
  · rw [hv]; rfl
  · exact exec_of_answer_error hp (by simp only [answer, hv, Check.lenBit_bytes_of_error ht]; rfl)

section
variable {s : State} {ord : Order}

theorem exec_write_ok {bs : Buffer} (hf : s.faulted = false) (h : writeValue ord s.operands.val = .ok bs) :
    exec (.write ord) s = .next (s.ended { bytes := some bs }) :=
  exec_of_answer_ok ⟨hf, nofun⟩ (by simp only [answer, h]; rfl)

theorem exec_write_error {c : Status} (hf : s.faulted = false) (h : writeValue ord s.operands.val = .error c) :
    exec (.write ord) s = .next (s.ended { status := c }) :=
  exec_of_answer_error ⟨hf, nofun⟩ (by simp only [answer, h]; rfl)

end

/-- Settles O23: what WRITE writes is `bytesOf`, the bit, or the bytes themselves. -/
theorem writeReadsBack : Obligations.WriteReadsBack := by
  intro s ord hf
  refine ⟨fun k x hv hx => ?_, fun k b hv hb => ?_, fun b hv => exec_write_ok hf (by rw [hv]; rfl),
    fun t hv => exec_write_ok hf (by rw [hv]; rfl), fun t bs hv ht => exec_write_ok hf (by rw [hv]; exact ht)⟩
  · refine ⟨bytesOf ord (k.width / 8) x, exec_write_ok hf (by rw [hv]; rfl), ?_, readInt_bytesOf ord hx⟩
    rw [bytesOf_length, ← width_eq_eight_mul]
  · refine ⟨bytesOf ord (k.width / 8) b, exec_write_ok hf (by rw [hv]; rfl), ?_, uintOf_bytesOf_flt ord hb⟩
    rw [bytesOf_length, ← fltWidth_eq_eight_mul]

/-- Settles O24, by the value's variant. -/
theorem writeRefusalsAreNotSticky : Obligations.WriteRefusalsAreNotSticky := by
  intro s ord hf
  refine ⟨fun hv => ?_, fun k lo hi hv => ?_, fun k lo hi hv => ?_, fun t hv => ?_, fun t hv => ?_, fun t e hv ht => ?_⟩
  all_goals refine exec_write_error hf ?_; rw [hv]
  case refine_6 => exact Check.hexPairs_error ht ▸ ht
  all_goals rfl

end Sys2Proof.Proofs.Values
end

section
/-! PROOFS. Float comparison (spec/40_codec.md R221, R235, R236). A pattern's magnitude bits, read as a number, order the
patterns as their magnitudes do (`magnitudeOf_strictMono`), so comparing the denoted numbers is comparing sign and
magnitude. -/

namespace Sys2Proof.Proofs.Floats

open Sys2Proof.Machine

/-! ### Magnitudes -/

/-- The magnitude bits of a pattern: all but the sign. -/
def magnitudeBits (k : FltKind) (bits : Nat) : Nat := bits % 2 ^ (k.width - 1)

/-- The magnitude that magnitude bits m denote, with F fraction bits. -/
def magnitudeOf (F m : Nat) : Nat := if m / 2 ^ F = 0 then m % 2 ^ F else (2 ^ F + m % 2 ^ F) * 2 ^ (m / 2 ^ F - 1)

/-- The next pattern denotes a larger magnitude, whether or not it carries into the exponent. -/
theorem magnitudeOf_strictMono (F : Nat) : StrictMono (magnitudeOf F) := by
  refine strictMono_nat_of_lt_succ fun m => ?_
  have hF : 0 < 2 ^ F := Nat.two_pow_pos F
  have hm : m = m % 2 ^ F + 2 ^ F * (m / 2 ^ F) := (Nat.mod_add_div m _).symm
  have hf : m % 2 ^ F < 2 ^ F := Nat.mod_lt _ hF
  generalize m % 2 ^ F = f at hm hf
  generalize m / 2 ^ F = e at hm
  have heval {e f : Nat} (hf : f < 2 ^ F) : magnitudeOf F (f + 2 ^ F * e) = if e = 0 then f else (2 ^ F + f) * 2 ^ (e - 1) := by
    rw [magnitudeOf, Nat.add_mul_div_left _ _ hF, Nat.div_eq_of_lt hf, Nat.zero_add, Nat.add_mul_mod_self_left,
      Nat.mod_eq_of_lt hf]
  obtain hlt | hcarry := Nat.lt_or_ge (f + 1) (2 ^ F)
  · rw [hm, show f + 2 ^ F * e + 1 = f + 1 + 2 ^ F * e by ring, heval hf, heval hlt]
    split
    · omega
    · exact Nat.mul_lt_mul_of_pos_right (by omega) (Nat.two_pow_pos _)
  · rw [hm, show f + 2 ^ F * e + 1 = 0 + 2 ^ F * (e + 1) by rw [Nat.mul_succ]; omega, heval hf, heval hF,
      if_neg e.succ_ne_zero]
    split
    · next he => subst he; simpa using hf
    · next he =>
      obtain ⟨d, rfl⟩ := Nat.exists_eq_succ_of_ne_zero he
      simp only [Nat.succ_eq_add_one, Nat.add_sub_cancel, Nat.add_zero]
      calc (2 ^ F + f) * 2 ^ d < (2 ^ F + 2 ^ F) * 2 ^ d := Nat.mul_lt_mul_of_pos_right (by omega) (Nat.two_pow_pos _)
        _ = 2 ^ F * 2 ^ (d + 1) := by ring

@[simp] theorem magnitudeOf_zero (F : Nat) : magnitudeOf F 0 = 0 := by simp [magnitudeOf]

theorem magnitudeOf_eq_zero {F m : Nat} : magnitudeOf F m = 0 ↔ m = 0 :=
  ⟨fun h => (magnitudeOf_strictMono F).injective (h.trans (magnitudeOf_zero F).symm), fun h => h ▸ magnitudeOf_zero F⟩

/-! ### The fields of a pattern (R221) -/

section
variable (k : FltKind) (bits : Nat)

theorem width_pred : k.width - 1 = k.fracBits + k.expBits := by cases k <;> rfl

theorem expo_eq : k.expo bits = magnitudeBits k bits / 2 ^ k.fracBits := by
  rw [FltKind.expo, magnitudeBits, width_pred, pow_add, Nat.mod_mul_right_div_self]

theorem frac_eq : k.frac bits = magnitudeBits k bits % 2 ^ k.fracBits := by
  rw [FltKind.frac, magnitudeBits, width_pred, pow_add, Nat.mod_mul_right_mod]

theorem magnitude_eq : k.magnitude bits = magnitudeOf k.fracBits (magnitudeBits k bits) := by
  rw [FltKind.magnitude, magnitudeOf, expo_eq, frac_eq]

/-- A NaN's magnitude bits exceed those of infinity. -/
theorem isNaN_iff : k.isNaN bits = true ↔ NanPattern k bits := by
  have hF : 0 < 2 ^ k.fracBits := Nat.two_pow_pos _
  have hE : 0 < 2 ^ k.expBits := Nat.two_pow_pos _
  have hsplit := Nat.mod_add_div (magnitudeBits k bits) (2 ^ k.fracBits)
  have hexpo : k.expo bits < 2 ^ k.expBits := Nat.mod_lt _ hE
  have hfrac : k.frac bits < 2 ^ k.fracBits := Nat.mod_lt _ hF
  rw [← expo_eq, ← frac_eq, Nat.mul_comm] at hsplit
  have hnan : NanPattern k bits ↔
      (2 ^ k.expBits - 1) * 2 ^ k.fracBits < k.frac bits + k.expo bits * 2 ^ k.fracBits := by
    rw [hsplit]
    rfl
  rw [hnan, FltKind.isNaN, Bool.and_eq_true, decide_eq_true_iff, decide_eq_true_iff]
  constructor
  · rintro ⟨he, hf⟩
    rw [he]
    omega
  · intro h
    have hle : 2 ^ k.expBits - 1 ≤ k.expo bits := by
      by_contra hlt
      have := Nat.mul_le_mul_right (2 ^ k.fracBits) (show k.expo bits + 1 ≤ 2 ^ k.expBits - 1 by omega)
      rw [Nat.succ_mul] at this
      omega
    have he : k.expo bits = 2 ^ k.expBits - 1 := by omega
    rw [he] at h
    exact ⟨he, by omega⟩

theorem number_of_nan (h : NanPattern k bits) : k.number bits = none := if_pos ((isNaN_iff k bits).mpr h)

/-- The number of a pattern that is no NaN: its magnitude, negative from the sign bit on. -/
theorem number_eq (hb : k.inRange bits = true) (h : ¬ NanPattern k bits) :
    k.number bits = some (if bits < 2 ^ (k.width - 1) then (magnitudeOf k.fracBits bits : Int)
      else -(magnitudeOf k.fracBits (bits - 2 ^ (k.width - 1)) : Int)) := by
  have hlt : bits < 2 ^ (k.width - 1) + 2 ^ (k.width - 1) := by cases k <;> exact of_decide_eq_true hb
  have hpos : 0 < 2 ^ (k.width - 1) := Nat.two_pow_pos _
  rw [FltKind.number, if_neg (mt (isNaN_iff k bits).mp h), FltKind.neg, magnitude_eq, magnitudeBits]
  generalize 2 ^ (k.width - 1) = S at hlt hpos ⊢
  obtain hsmall | hlarge := Nat.lt_or_ge bits S
  · rw [Nat.div_eq_of_lt hsmall, Nat.mod_eq_of_lt hsmall, if_pos hsmall]
    rfl
  · rw [Nat.div_eq_of_lt_le (k := 1) (by omega) (by omega), Nat.mod_eq_sub_mod hlarge,
      Nat.mod_eq_of_lt (show bits - S < S by omega), if_neg hlarge.not_gt]
    rfl

end

/-! ### The obligations -/

/-- Every pattern that is no NaN equals itself. -/
theorem ieeeEq_self {k : FltKind} {b : Nat} (h : ¬ NanPattern k b) : ieeeEq k b b = true := by
  simp [ieeeEq, FltKind.number, mt (isNaN_iff k b).mp h]

/-- Settles O32: the numbers compare as the signs and magnitude bits do. -/
theorem floatComparisonIsSignMagnitude : Obligations.FloatComparisonIsSignMagnitude := by
  intro k a b ha hb
  constructor
  · rintro (hnan | hnan) <;> simp only [ieeeEq, ieeeLe, number_of_nan k _ hnan]
    · exact ⟨trivial, trivial⟩
    · cases k.number a <;> exact ⟨rfl, rfl⟩
  · intro hna hnb
    have hmono := magnitudeOf_strictMono k.fracBits
    have hzero (m : Nat) := @magnitudeOf_eq_zero k.fracBits m
    have halt : a < 2 ^ (k.width - 1) + 2 ^ (k.width - 1) := by cases k <;> exact of_decide_eq_true ha
    have hblt : b < 2 ^ (k.width - 1) + 2 ^ (k.width - 1) := by cases k <;> exact of_decide_eq_true hb
    simp only [ieeeEq, ieeeLe, number_eq k a ha hna, number_eq k b hb hnb, decide_eq_true_iff, SignMagnitudeLe]
    generalize 2 ^ (k.width - 1) = S at halt hblt ⊢
    have hmod {x : Nat} (hx : x < S + S) : x % S = 0 ↔ x = 0 ∨ x = S := by
      obtain hs | hl := Nat.lt_or_ge x S
      · rw [Nat.mod_eq_of_lt hs]
        omega
      · rw [Nat.mod_eq_sub_mod hl, Nat.mod_eq_of_lt (by omega)]
        omega
    rw [hmod halt, hmod hblt]
    have ha0 := hzero a
    have hb0 := hzero b
    have hda0 := hzero (a - S)
    have hdb0 := hzero (b - S)
    split_ifs with hsa hsb hsb
    · rw [Nat.cast_inj, hmono.injective.eq_iff, Nat.cast_le, hmono.le_iff_le]
      omega
    · omega
    · exact ⟨by omega, iff_true_intro (by omega)⟩
    · rw [neg_inj, Nat.cast_inj, hmono.injective.eq_iff, neg_le_neg_iff, Nat.cast_le, hmono.le_iff_le]
      omega

end Sys2Proof.Proofs.Floats
end

section
/-! PROOFS. What CHECK reads (spec/40_codec.md R231, R234 to R236, R240, R241). A CHECK whose field lies in the buffer
decodes the bytes of its placement (`exec_check_read`); an unmirrored field's placement is its rounded cursor
(`place_unmirrored`), so there the bytes of a number of the kind decode to that number (`exec_check_at`). -/

namespace Sys2Proof.Proofs.CheckReads

open Sys2Proof.Machine Sys2Proof.Proofs.Check Sys2Proof.Proofs.Commands Sys2Proof.Proofs.Values
  Sys2Proof.Proofs.Invariants Sys2Proof.Proofs.Floats

/-! ### Placement (R231) -/

section
variable {w cur : Nat} {ord : Order} {grid : Grid}

/-- A byte or bit of a big-endian 16-bit register is read from the register's other byte. -/
theorem place_be_g16_start (hw : w = 1 ∨ w = 8) : (place w cur 16 .be).start = otherByte (roundUp cur w / 8) := by
  have hstop := place_be_g16_stop (cur := cur) hw
  have hlen : (place w cur 16 .be).stop = (place w cur 16 .be).start + max 1 (w / 8) := rfl
  rcases hw with rfl | rfl <;> simp at hlen <;> omega

/-- A field that is not mirrored is read from its rounded cursor on; a bit of the 8-bit grid stays in its byte. -/
theorem place_unmirrored (hw : w = 1 ∨ 8 ∣ w) (hpos : 0 < w) (h : Unmirrored grid ord w) :
    (place w cur (gridBits grid) ord).start = roundUp cur w / 8 := by
  have hdvd : w ∣ roundUp cur w := Nat.dvd_mul_left _ _
  have hwide (hle : gridBits grid ≤ w) : (place w cur (gridBits grid) ord).start = roundUp cur w / 8 := by
    have hmod : roundUp cur w % w = 0 := Nat.mod_eq_zero_of_dvd hdvd
    simp only [place, max_eq_left hle, hmod, Nat.zero_div, Nat.div_self hpos, mirror]
    cases ord <;> simp
  obtain hle | hlt := Nat.lt_or_ge w (gridBits grid) |>.symm
  · exact hwide hle
  · have hnarrow : w = 1 ∨ w = 8 := by cases grid <;> simp only [gridBits] at hlt <;> omega
    cases grid <;> cases ord <;> simp only [Unmirrored, gridBits] at h hlt ⊢ <;> rcases hnarrow with rfl | rfl <;>
      simp [place, mirror] at h hlt ⊢ <;> omega

theorem place_stop : (place w cur (gridBits grid) ord).stop =
    (place w cur (gridBits grid) ord).start + max 1 (w / 8) := rfl

/-- Where the field ends in the buffer, the bytes of an unmirrored field lie in the buffer. -/
theorem place_unmirrored_stop_le {n : Nat} (hw : w = 1 ∨ 8 ∣ w) (hpos : 0 < w) (h : Unmirrored grid ord w)
    (hfit : roundUp cur w + w ≤ 8 * n) : (place w cur (gridBits grid) ord).stop ≤ n := by
  rw [place_stop, place_unmirrored hw hpos h]
  omega

end

/-! ### What is decoded (R234 to R236) -/

theorem decodeField_eq_readAs {v : Value} (hv : ∀ b, v ≠ .bool b) (buf : Buffer) (p : Place) (ord : Order) :
    decodeField v buf p ord = readAs ord (slice buf p.start p.stop) v := by
  cases v with
  | bool b => exact absurd rfl (hv b)
  | _ => rfl

theorem decodeField_bool (b : Bool) (buf : Buffer) (p : Place) (ord : Order) :
    decodeField (.bool b) buf p ord = .bit ((buf.getD p.start 0).getLsbD (p.c % 8)) := rfl

theorem boundHolds_iff {α : Type} (p : α → Bool) (b : Option α) : boundHolds p b = true ↔ ∀ m ∈ b, p m = true := by
  cases b <;> simp [boundHolds]

/-- The pass flag is R235's and R236's match. -/
theorem valueMatches_iff (v : Value) (got : Datum) : valueMatches v got = true ↔ Meets v got := by
  cases v with
  | rngInt k lo hi | rngFlt k lo hi =>
    cases got <;> simp only [valueMatches, Meets, Bool.and_eq_true, boundHolds_iff, decide_eq_true_iff,
      Bool.false_eq_true]
  | bytes t =>
    cases got with
    | buf g => cases ht : hexDec t <;> simp [valueMatches, Meets, ht, eq_comm]
    | _ => simp [valueMatches, Meets]
  | _ => cases got <;> simp [valueMatches, Meets]

theorem slice_singleton {buf : Buffer} {p : Nat} (h : p < buf.length) : slice buf p (p + 1) = [buf.getD p 0] := by
  rw [slice, Nat.add_sub_cancel_left, List.drop_eq_getElem_cons h, List.getD_eq_getElem _ _ h]
  rfl

/-! ### CHECK of a field in the buffer (R228) -/

section
variable {s : State} {ord : Order} {grid : Grid} {w c : Nat}

theorem ne_bool_of_width {v : Value} (hlen : lenBit v = .ok w) (hw : 8 ≤ w) (b : Bool) : v ≠ .bool b := by
  rintro rfl
  cases hlen
  exact absurd hw (by decide)

/-- CHECK of a field whose placement lies in the buffer decodes it, matches it and moves the cursor behind it. -/
theorem exec_check_read (hf : s.faulted = false) (hlen : lenBit s.operands.val = .ok w) (hpos : 0 < w)
    (hround : RoundsTo s.operands.cur w c) (hfit : c + w ≤ 8 * s.operands.buf.length)
    (hstop : (place w s.operands.cur (gridBits grid) ord).stop ≤ s.operands.buf.length) {got : Datum}
    (hgot : decodeField s.operands.val s.operands.buf (place w s.operands.cur (gridBits grid) ord) ord = got) :
    exec (.check ord grid) s = .next (s.ended
      { cur := some (c + w), report := some (reportOf s.operands.val (valueMatches s.operands.val got) (some got)) }) := by
  refine exec_check_of_checked hf ((checkBody_of_width hlen hpos).trans ?_)
  obtain rfl := roundUp_eq_of_roundsTo hround
  subst hgot
  exact (if_neg (mt lt_ceilDiv_eight_iff.mp hfit.not_gt)).trans (if_neg hstop.not_gt)

/-- CHECK of unmirrored whole bytes reads the bytes from the rounded cursor on, in the order given. -/
theorem exec_check_bytes (hf : s.faulted = false) (hlen : lenBit s.operands.val = .ok w) (hw : 8 ≤ w)
    (hmirror : Unmirrored grid ord w) (hround : RoundsTo s.operands.cur w c)
    (hfit : c + w ≤ 8 * s.operands.buf.length) {got : Datum}
    (hgot : readAs ord ((s.operands.buf.drop (c / 8)).take (w / 8)) s.operands.val = got) :
    exec (.check ord grid) s = .next (s.ended
      { cur := some (c + w), report := some (reportOf s.operands.val (valueMatches s.operands.val got) (some got)) }) := by
  have hbytes := lenBit_eq_one_or_dvd hlen
  have hpos : 0 < w := by omega
  have hc := roundUp_eq_of_roundsTo hround
  have hstart := place_unmirrored (cur := s.operands.cur) hbytes hpos hmirror
  refine exec_check_read hf hlen hpos hround hfit (place_unmirrored_stop_le hbytes hpos hmirror (hc.symm ▸ hfit)) ?_
  rw [decodeField_eq_readAs (ne_bool_of_width hlen hw), slice, place_stop, hstart, hc, Nat.add_sub_cancel_left,
    max_eq_right (by omega), hgot]

/-- CHECK of unmirrored whole bytes that stand behind `pre`. -/
theorem exec_check_at {pre bs rest : Buffer} (hf : s.faulted = false) (hlen : lenBit s.operands.val = .ok w)
    (hw : 8 ≤ w) (hmirror : Unmirrored grid ord w) (hbs : w = 8 * bs.length) (hbuf : s.operands.buf = pre ++ bs ++ rest)
    (hround : RoundsTo s.operands.cur w (8 * pre.length)) {got : Datum} (hgot : readAs ord bs s.operands.val = got) :
    exec (.check ord grid) s = .next (s.ended
      { cur := some (8 * pre.length + w),
        report := some (reportOf s.operands.val (valueMatches s.operands.val got) (some got)) }) := by
  refine exec_check_bytes hf hlen hw hmirror hround ?_ ?_
  · rw [hbuf]
    simp only [List.length_append]
    omega
  · have hread : (s.operands.buf.drop (8 * pre.length / 8)).take (w / 8) = bs := by
      rw [hbuf, hbs, Nat.mul_div_cancel_left _ (by decide), Nat.mul_div_cancel_left _ (by decide), List.append_assoc,
        List.drop_left, List.take_left]
    rw [hread, hgot]

/-- CHECK of a boolean reads the cursor's bit of the byte of its placement. -/
theorem exec_check_bool {b : Bool} {p : Nat} (hf : s.faulted = false) (hv : s.operands.val = .bool b)
    (hfit : s.operands.cur < 8 * s.operands.buf.length)
    (hstart : (place 1 s.operands.cur (gridBits grid) ord).start = p) (hp : p < s.operands.buf.length) :
    exec (.check ord grid) s = .next (s.ended
      { cur := some (s.operands.cur + 1), report := some (reportOf (.bool b)
          (decide ((s.operands.buf.getD p 0).getLsbD (s.operands.cur % 8) = b))
          (some (.bit ((s.operands.buf.getD p 0).getLsbD (s.operands.cur % 8))))) }) := by
  have hlen : lenBit s.operands.val = .ok 1 := by rw [hv]; rfl
  have hround : RoundsTo s.operands.cur 1 s.operands.cur := ⟨one_dvd _, le_rfl, by omega⟩
  have hcursor : (place 1 s.operands.cur (gridBits grid) ord).c = s.operands.cur := roundUp_eq_of_roundsTo hround
  have hstop : (place 1 s.operands.cur (gridBits grid) ord).stop ≤ s.operands.buf.length := by
    rw [place_stop, hstart]
    exact hp
  have hexec := exec_check_read (ord := ord) (grid := grid) hf hlen (by decide) hround hfit hstop rfl
  rw [hv, decodeField_bool, hstart, hcursor] at hexec
  exact hexec

end

/-! ### Payloads (R241) -/

theorem intKey_injective : Function.Injective intKey := by
  intro j k
  cases j <;> cases k <;> simp [intKey]

theorem fltKey_injective : Function.Injective fltKey := by
  intro j k
  cases j <;> cases k <;> simp [fltKey]

/-- Two values with bytes and the same key are of one kind. -/
inductive OneKind : Value → Value → Prop
  | int (k : IntKind) (x y : Int) : OneKind (.int k x) (.int k y)
  | flt (k : FltKind) (b g : Nat) : OneKind (.flt k b) (.flt k g)
  | bool (b g : Bool) : OneKind (.bool b) (.bool g)
  | str (t g : Buffer) : OneKind (.str t) (.str g)
  | bytes (t g : Buffer) : OneKind (.bytes t) (.bytes g)

theorem oneKind_of_key {u v : Value} {ord : Order} {us vs : Buffer} (hkey : sourceKey u = sourceKey v)
    (hus : writeValue ord u = .ok us) (hvs : writeValue ord v = .ok vs) : OneKind u v := by
  cases u with
  | int k x =>
    cases v with
    | int j y => exact intKey_injective hkey ▸ .int k x y
    | flt j g => cases k <;> cases j <;> simp [sourceKey, intKey, fltKey] at hkey
    | bool _ | str _ | bytes _ => cases k <;> simp [sourceKey, intKey] at hkey
    | empty | rngInt _ _ _ | rngFlt _ _ _ | time _ | err _ => cases hvs
  | flt k b =>
    cases v with
    | flt j g => exact fltKey_injective hkey ▸ .flt k b g
    | int j y => cases k <;> cases j <;> simp [sourceKey, intKey, fltKey] at hkey
    | bool _ | str _ | bytes _ => cases k <;> simp [sourceKey, fltKey] at hkey
    | empty | rngInt _ _ _ | rngFlt _ _ _ | time _ | err _ => cases hvs
  | bool _ | str _ | bytes _ =>
    cases v with
    | int j y => cases j <;> simp [sourceKey, intKey] at hkey
    | flt j y => cases j <;> simp [sourceKey, fltKey] at hkey
    | empty | rngInt _ _ _ | rngFlt _ _ _ | time _ | err _ => cases hvs
    | bool _ | str _ | bytes _ => first | constructor | simp [sourceKey] at hkey
  | empty | rngInt _ _ _ | rngFlt _ _ _ | time _ | err _ => cases hus

/-- The bytes written of a value read back as its payload, whichever value of its kind is checked against them. -/
theorem readAs_written {u v : Value} {ord : Order} {vs : Buffer} (hkind : OneKind u v) (hv : v.wf = true)
    (hvs : writeValue ord v = .ok vs) (hbool : ∀ b, u ≠ .bool b) : readAs ord vs u = payload v vs := by
  cases hkind with
  | int k x y => cases hvs; exact congrArg Datum.int (readInt_bytesOf ord hv)
  | flt k b g => cases hvs; exact congrArg Datum.flt (uintOf_bytesOf_flt ord hv)
  | bool b g => exact absurd rfl (hbool b)
  | str t g => rfl
  | bytes t g => rfl

/-- The payloads of two values of a kind are the same, for floats by IEEE 754 equality. -/
def PayloadsMatch (u v : Value) (us vs : Buffer) : Prop :=
  match u, v with
  | .flt k b, .flt _ g => ieeeEq k g b = true
  | _, _ => payload u us = payload v vs

/-- An exact value of whole bytes matches another one's bytes exactly when the payloads are the same, for floats by IEEE
754 equality. -/
theorem valueMatches_payload {u v : Value} {ord : Order} {us vs : Buffer} (hkind : OneKind u v)
    (hus : writeValue ord u = .ok us) (hvs : writeValue ord v = .ok vs) :
    valueMatches u (payload v vs) = true ↔ PayloadsMatch u v us vs := by
  rw [valueMatches_iff]
  cases hkind with
  | flt k b g => rfl
  | bytes t g =>
    have ht : hexDec t = .ok us := hus
    simp [Meets, PayloadsMatch, payload, ht]
  | int _ _ _ | bool _ _ | str _ _ => cases hus; cases hvs; simp [Meets, PayloadsMatch, payload, eq_comm]

theorem expectedOf_payload {u : Value} {ord : Order} {us : Buffer} (hus : writeValue ord u = .ok us)
    (hbytes : ∀ t, u ≠ .bytes t) : expectedOf u = .exactly (payload u us) := by
  cases u with
  | bytes t => exact absurd rfl (hbytes t)
  | empty | rngInt _ _ _ | rngFlt _ _ _ | time _ | err _ => cases hus
  | _ => cases hus; rfl

/-- A value matches its own bytes, unless it is a NaN. -/
theorem valueMatches_self {v : Value} {ord : Order} {bs : Buffer} (hwrite : writeValue ord v = .ok bs)
    (hnan : ∀ k b, v = .flt k b → ¬ NanPattern k b) : valueMatches v (payload v bs) = true := by
  have hkind := oneKind_of_key rfl hwrite hwrite
  rw [valueMatches_payload hkind hwrite hwrite]
  cases hkind with
  | flt k b => exact ieeeEq_self (hnan k b rfl)
  | _ => rfl

/-- Only the empty string and BYTES that decode to nothing are written as no bytes. -/
theorem written_nil {v : Value} {ord : Order} (h : writeValue ord v = .ok []) :
    v = .str [] ∨ ∃ t, v = .bytes t ∧ hexDec t = .ok [] := by
  cases v with
  | int k x | flt k x =>
    have hlen := congrArg List.length (Except.ok.inj h)
    rw [bytesOf_length] at hlen
    cases k <;> cases hlen
  | str t => exact .inl (congrArg _ (Except.ok.inj h))
  | bytes t => exact .inr ⟨t, rfl, h⟩
  | bool b => cases Except.ok.inj h
  | empty | rngInt _ _ _ | rngFlt _ _ _ | time _ | err _ => cases h

/-- An unmirrored boolean is read from the cursor's own byte. -/
theorem exec_check_own_bit {s : State} {ord : Order} {grid : Grid} {b : Bool} (hf : s.faulted = false)
    (hv : s.operands.val = .bool b) (hmirror : Unmirrored grid ord 1)
    (hfit : s.operands.cur < 8 * s.operands.buf.length) {bit : Bool}
    (hbit : (s.operands.buf.getD (s.operands.cur / 8) 0).getLsbD (s.operands.cur % 8) = bit) :
    exec (.check ord grid) s = .next (s.ended
      { cur := some (s.operands.cur + 1), report := some (reportOf (.bool b) (decide (bit = b)) (some (.bit bit))) }) := by
  have hround : roundUp s.operands.cur 1 = s.operands.cur :=
    roundUp_eq_of_roundsTo ⟨one_dvd _, le_rfl, Nat.lt_succ_self _⟩
  have hstart : (place 1 s.operands.cur (gridBits grid) ord).start = s.operands.cur / 8 := by
    rw [place_unmirrored (.inl rfl) (by decide) hmirror, hround]
  have hexec := exec_check_bool (ord := ord) (grid := grid) hf hv hfit hstart (by omega)
  rwa [hbit] at hexec

/-! ### The obligations -/

/-- Settles O25: the three laws are CHECK of a field at the bytes of a value of its kind, its own or another's, and CHECK
of a bit. -/
theorem checkPassesOnWrittenBytes : Obligations.CheckPassesOnWrittenBytes := by
  refine ⟨?_, ?_, ?_⟩
  · intro s ord grid bs w hf hwf hwrite hlen hbuf hcur hmirror hnan
    obtain ⟨b, hv⟩ | hv : (∃ b, s.operands.val = .bool b) ∨ ∀ b, s.operands.val ≠ .bool b := by
      cases s.operands.val <;> simp
    · rw [hv] at hwrite hlen
      cases hwrite
      cases hlen
      have hexec := exec_check_own_bit hf hv hmirror (bit := b) (by rw [hcur, hbuf]; exact Nat.lt_add_one_of_le (Nat.zero_le _))
        (by rw [hcur, hbuf]; cases b <;> rfl)
      rw [hcur] at hexec
      exact ⟨_, hexec, decide_eq_true rfl, by rw [hv]; rfl⟩
    · have hw : w = 8 * bs.length := Except.ok.inj (hlen.symm.trans (lenBit_of_write hwrite hv))
      obtain hnil | hne := eq_or_ne bs []
      · subst hnil hw
        obtain ⟨-, -, -, hempty, -⟩ := checkOfUnreadVariants s ord grid hf
        obtain ⟨rep, hexec, hpass, hgot, -⟩ := hempty (written_nil hwrite)
        rw [hcur] at hexec
        refine ⟨rep, hexec, hpass, hgot.trans (congrArg some ?_)⟩
        rcases written_nil hwrite with hv | ⟨t, hv, -⟩ <;> rw [hv] <;> rfl
      · have hpos : 0 < bs.length := List.length_pos_iff.mpr hne
        have hread := readAs_written (oneKind_of_key rfl hwrite hwrite) hwf hwrite hv
        have hexec := exec_check_at (pre := []) (rest := []) hf hlen (by omega) hmirror hw (by simpa using hbuf)
          (by rw [hcur]; exact ⟨dvd_zero _, le_rfl, (by omega : 0 < 0 + w)⟩) hread
        simp only [List.length_nil, Nat.mul_zero, Nat.zero_add] at hexec
        exact ⟨_, hexec, valueMatches_self hwrite hnan, rfl⟩
  · intro s ord grid u v us vs pre rest w hf hval huwf hvwf hkey hus hvs hulen hvlen hw hmirror hbuf hround
    subst hval
    have hbool := ne_bool_of_width hulen hw
    have hkind := oneKind_of_key hkey hus hvs
    have hvbool := ne_bool_of_width hvlen hw
    have hwidth : w = 8 * vs.length := Except.ok.inj (hvlen.symm.trans (lenBit_of_write hvs hvbool))
    have hexec := exec_check_at hf hulen hw hmirror hwidth hbuf hround (readAs_written hkind hvwf hvs hbool)
    exact ⟨_, hexec, rfl, (describes_reportOf _ false none).1, valueMatches_payload hkind hus hvs, expectedOf_payload hus⟩
  · intro s ord grid b hf hv hmirror hfit
    have hexec := exec_check_own_bit (ord := ord) (grid := grid) hf hv (by simpa [Unmirrored] using hmirror) hfit rfl
    exact ⟨_, hexec, rfl, decide_eq_true_iff, rfl, rfl⟩

/-- The byte an 8-bit field or a boolean of a 16-bit grid is read from. -/
theorem place_g16_start {w cur : Nat} (ord : Order) (hw : w = 1 ∨ w = 8) :
    (place w cur (gridBits .g16) ord).start =
      if ord = .be then otherByte (roundUp cur w / 8) else roundUp cur w / 8 := by
  cases ord with
  | be => exact place_be_g16_start hw
  | le => exact place_unmirrored (by omega) (by omega) (.inr (.inl rfl))

/-- Settles O28: a mirrored byte, a mirrored bit, and a field as wide as the grid. -/
theorem checkMirrorsSubWordFields : Obligations.CheckMirrorsSubWordFields := by
  intro s v hf hv
  subst hv
  refine ⟨?_, ?_, ?_⟩
  · intro ord j p hlen hround hj hp hplen
    have hstart : (place 8 s.operands.cur (gridBits .g16) ord).start = p := by
      rw [place_g16_start ord (.inr rfl), roundUp_eq_of_roundsTo hround, hp, Nat.mul_div_cancel_left _ (by decide)]
    have hstop : (place 8 s.operands.cur (gridBits .g16) ord).stop = p + 1 := by rw [place_stop, hstart]; rfl
    have hexec := exec_check_read hf hlen (by decide) hround (by omega) (hstop.trans_le hplen) rfl
    rw [decodeField_eq_readAs (ne_bool_of_width hlen le_rfl), hstart, hstop, slice_singleton hplen] at hexec
    exact ⟨_, hexec, describes_reportOf _ _ _, rfl, valueMatches_iff _ _⟩
  · intro ord b j i p hv hi hcur hj hp hplen
    have hstart : (place 1 s.operands.cur (gridBits .g16) ord).start = p := by
      rw [place_g16_start ord (.inl rfl), roundUp_eq_of_roundsTo ⟨one_dvd _, le_rfl, Nat.lt_succ_self _⟩, hp, hcur,
        show (8 * j + i) / 8 = j by omega]
    have hexec := exec_check_bool hf hv (by omega) hstart hplen
    rw [hcur, show (8 * j + i) % 8 = i by omega] at hexec
    exact ⟨_, hexec, hv ▸ describes_reportOf _ _ _, rfl, decide_eq_true_iff⟩
  · intro ord grid w c hlen hgrid hround hfit
    have hw : 8 ≤ w := hgrid.trans' (by cases grid <;> decide)
    have hmirror : Unmirrored grid ord w := by
      cases grid with
      | g8 => exact .inl rfl
      | g16 => exact .inr (.inr hgrid)
    exact ⟨_, exec_check_bytes hf hlen hw hmirror hround hfit rfl, describes_reportOf _ _ _, rfl, valueMatches_iff _ _⟩

/-- Settles O31: a range is checked against the bytes of its scalar, and matches within its bounds. -/
theorem checkRangeIsInclusive : Obligations.CheckRangeIsInclusive := by
  intro s ord grid pre rest hf
  constructor
  · intro k lo hi x hv hx hmirror hbuf hround
    have hexec := exec_check_at (got := .int x) hf (hv ▸ rfl) (by cases k <;> decide) hmirror
      (by rw [bytesOf_length, ← width_eq_eight_mul]) hbuf hround
      (by rw [hv]; exact congrArg Datum.int (readInt_bytesOf ord hx))
    rw [hv] at hexec
    exact ⟨_, hexec, rfl, valueMatches_iff (.rngInt k lo hi) (.int x), (describes_reportOf _ false none).1, rfl⟩
  · intro k lo hi x hv hx hbuf hround
    have hexec := exec_check_at (got := .flt x) (grid := grid) hf (hv ▸ rfl) (by cases k <;> decide)
      (.inr (.inr (by cases k <;> decide))) (by rw [bytesOf_length, ← fltWidth_eq_eight_mul]) hbuf hround
      (by rw [hv]; exact congrArg Datum.flt (uintOf_bytesOf_flt ord hx))
    rw [hv] at hexec
    exact ⟨_, hexec, rfl, valueMatches_iff (.rngFlt k lo hi) (.flt x), (describes_reportOf _ false none).1, rfl⟩

/-- CHECK of a field answers alike from two buffers of one length that agree on the bytes of its placement. -/
theorem checkField_congr {ord : Order} {grid w : Nat} {o : Operands} {buf : Buffer} (hlength : buf.length = o.buf.length)
    (hagree : ∀ j, (place w o.cur grid ord).start ≤ j → j < (place w o.cur grid ord).stop → buf[j]? = o.buf[j]?) :
    checkField ord grid { o with buf := buf } w = checkField ord grid o w := by
  have hslice : slice buf (place w o.cur grid ord).start (place w o.cur grid ord).stop =
      slice o.buf (place w o.cur grid ord).start (place w o.cur grid ord).stop := by
    refine List.ext_getElem? fun i => ?_
    simp only [slice, List.getElem?_take, List.getElem?_drop]
    split
    · exact hagree _ (by omega) (by omega)
    · rfl
  have hbyte : buf.getD (place w o.cur grid ord).start 0 = o.buf.getD (place w o.cur grid ord).start 0 := by
    have hstop : (place w o.cur grid ord).stop = (place w o.cur grid ord).start + max 1 (w / 8) := rfl
    rw [List.getD_eq_getElem?_getD, List.getD_eq_getElem?_getD, hagree _ le_rfl (by omega)]
  have hdecode : decodeField o.val buf (place w o.cur grid ord) ord =
      decodeField o.val o.buf (place w o.cur grid ord) ord := by
    obtain ⟨b, hv⟩ | hv : (∃ b, o.val = .bool b) ∨ ∀ b, o.val ≠ .bool b := by cases o.val <;> simp
    · rw [hv, decodeField_bool, decodeField_bool, hbyte]
    · rw [decodeField_eq_readAs hv, decodeField_eq_readAs hv, hslice]
  simp only [checkField, hlength, hdecode]

/-- Settles O27: the two commands give the same answer behind the same gate. -/
theorem checkReadsOnlyItsBytes : Obligations.CheckReadsOnlyItsBytes := by
  intro s ord grid o buf w hlen hw hlength hagree
  have hbody : checkBody ord (gridBits grid) { o with buf := buf } = checkBody ord (gridBits grid) o := by
    rw [checkBody_of_width (o := o) hlen hw, checkBody_of_width (o := { o with buf := buf }) hlen hw,
      checkField_congr hlength hagree]
  obtain ⟨t, ht⟩ := exists_answerGate (s.issue (.check ord grid) o) (.check ord grid) (checkBody ord (gridBits grid) o)
  obtain ⟨t', ht', hresult, -⟩ := agrees_answerGate (s := s.issue (.check ord grid) o) (.check ord grid) _ t ht
  refine ⟨t, t', (exec_answering rfl).trans ht, (exec_answering ?_).trans ht', hresult.symm⟩
  exact congrArg some hbody

end Sys2Proof.Proofs.CheckReads
end

section
/-! PROOFS. Hex literals (spec/40_codec.md R250). HEXDEC's clean-up works piece by piece, unless a "0" and an "x" meet
at the cut (`hexClean_append`), so a text of digits and fillers cleans to its digits. -/

namespace Sys2Proof.Proofs.Literals

open Sys2Proof.Machine Sys2Proof.Proofs.Commands

/-! ### Characters (R250) -/

theorem asciiLower_eq_zero_iff : ∀ b : Byte, asciiLower b = 0x30 ↔ b = 0x30 := by decide

theorem asciiLower_eq_x_iff : ∀ b : Byte, asciiLower b = 0x78 ↔ IsX b := by decide

theorem asciiLower_eq_space_iff : ∀ b : Byte, asciiLower b = 0x20 ↔ b = 0x20 := by decide

theorem asciiLower_hexAscii : ∀ capital : Bool, ∀ n < 16, asciiLower (hexAscii capital n) = hexAscii false n := by decide

theorem hexDigit_hexAscii : ∀ n < 16, hexDigit (hexAscii false n) = some n := by decide

theorem hexAscii_not_filler : ∀ capital : Bool, ∀ n < 16, hexAscii capital n ≠ 0x20 ∧ ¬ IsX (hexAscii capital n) := by
  decide

/-- A character that is no hex digit has no digit value. -/
theorem hexDigit_asciiLower_eq_none : ∀ b : Byte, ¬ HexChar b → hexDigit (asciiLower b) = none := by decide

/-! ### The clean-up (R250) -/

theorem dropOx_of_not_pair {x c : Byte} (r : Buffer) (h : ¬ (x = 0x30 ∧ c = 0x78)) :
    dropOx (x :: c :: r) = x :: dropOx (c :: r) := if_neg h

/-- Deleting "0x" works piece by piece where no "0x" lies across the cut. -/
theorem dropOx_append {a b : Buffer} (h : ¬ (a.getLast? = some 0x30 ∧ b.head? = some 0x78)) :
    dropOx (a ++ b) = dropOx a ++ dropOx b := by
  induction a using dropOx.induct with
  | case1 => rfl
  | case2 x =>
    cases b with
    | nil => rfl
    | cons c r =>
      have hx : ¬ (x = 0x30 ∧ c = 0x78) := by simpa using h
      exact dropOx_of_not_pair r hx
  | case3 x c r hpair ih =>
    obtain ⟨rfl, rfl⟩ := hpair
    have hr : ¬ (r.getLast? = some 0x30 ∧ b.head? = some 0x78) := by
      cases r with
      | nil => simp
      | cons d r => simpa using h
    simpa [dropOx] using ih hr
  | case4 x c r hpair ih =>
    have hrest := ih (by simpa using h)
    rw [List.cons_append] at hrest
    rw [List.cons_append, List.cons_append, dropOx_of_not_pair _ hpair, dropOx_of_not_pair _ hpair, hrest,
      List.cons_append]

/-- Cleaning works piece by piece where no "0x", in either case, lies across the cut. -/
theorem hexClean_append {a b : Buffer} (h : ¬ (a.getLast? = some 0x30 ∧ ∃ x ∈ b.head?, IsX x)) :
    hexClean (a ++ b) = hexClean a ++ hexClean b := by
  have hlower : ¬ ((a.map asciiLower).getLast? = some 0x30 ∧ (b.map asciiLower).head? = some 0x78) := by
    simpa only [List.getLast?_map, List.head?_map, Option.map_eq_some_iff, asciiLower_eq_zero_iff, asciiLower_eq_x_iff,
      exists_eq_right, Option.mem_def] using h
  rw [hexClean, List.map_append, dropOx_append hlower, List.filter_append]
  rfl

theorem hexClean_singleton {c : Byte} (h : c ≠ 0x20) : hexClean [c] = [asciiLower c] := by
  have hc : decide (asciiLower c ≠ 0x20) = true := decide_eq_true ((asciiLower_eq_space_iff c).not.mpr h)
  exact List.filter_cons_of_pos hc

/-! ### Texts of digits and fillers (R250) -/

section
variable {ds : List Nat} {t : Buffer}

theorem hexText_lt (h : HexText ds t) : ∀ n ∈ ds, n < 16 := by
  induction h with
  | nil => simp
  | filler _ _ ih => exact ih
  | digit _ hn _ ih => simpa using ⟨hn, ih⟩

/-- No such text begins with an "x", so none completes an "0x" with what stands before it. -/
theorem hexText_head_not_x (h : HexText ds t) : ¬ ∃ x ∈ t.head?, IsX x := by
  cases h with
  | nil => simp
  | filler hf _ => revert hf; simp [hexFillers]; rintro (rfl | rfl | rfl) <;> simp
  | digit capital hn _ => simpa using (hexAscii_not_filler capital _ hn).2

/-- A text of fillers alone does not end in "0". -/
theorem hexText_getLast_of_fillers (h : HexText [] t) : t.getLast? ≠ some 0x30 := by
  generalize hds : ([] : List Nat) = ds at h
  induction h with
  | nil => simp
  | @filler ds t f hf _ ih =>
    rw [List.getLast?_append]
    cases ht : t.getLast? with
    | some c => simpa [ht] using ih hds
    | none => revert hf; simp [hexFillers]; rintro (rfl | rfl | rfl) <;> simp
  | digit => cases hds

/-- Cleaning leaves the digits. -/
theorem hexText_clean (h : HexText ds t) : hexClean t = ds.map (hexAscii false) := by
  induction h with
  | nil => rfl
  | @filler ds t f hf ht ih =>
    have hclean : hexClean f = [] := by revert hf; simp [hexFillers]; rintro (rfl | rfl | rfl) <;> rfl
    rw [hexClean_append fun hx => hexText_head_not_x ht hx.2, hclean, ih]
    rfl
  | @digit ds t n capital hn ht ih =>
    rw [← List.singleton_append, hexClean_append fun hx => hexText_head_not_x ht hx.2,
      hexClean_singleton (hexAscii_not_filler capital n hn).1, asciiLower_hexAscii capital n hn, ih]
    rfl

end

/-! ### The pairing (R250) -/

/-- Digits pair up, and a last one alone is ignored. -/
theorem hexPairs_digits {ds : List Nat} (h : ∀ n ∈ ds, n < 16) : hexPairs (ds.map (hexAscii false)) = .ok (pairedBytes ds) := by
  induction ds using pairedBytes.induct with
  | case1 a b ds ih =>
    simp only [List.mem_cons, forall_eq_or_imp] at h
    obtain ⟨ha, hb, hds⟩ := h
    simp [hexPairs, hexDigit_hexAscii, ha, hb, ih hds, pairedBytes]
  | case2 ds hshort =>
    rcases ds with - | ⟨a, - | ⟨b, ds⟩⟩
    · rfl
    · rfl
    · exact absurd rfl (hshort a b ds)

/-- Behind an even number of digits, pairing begins afresh. -/
theorem hexPairs_digits_append {ds : List Nat} (h : ∀ n ∈ ds, n < 16) (heven : ds.length % 2 = 0) (l : Buffer) :
    hexPairs (ds.map (hexAscii false) ++ l) = (hexPairs l).map (pairedBytes ds ++ ·) := by
  induction ds using pairedBytes.induct with
  | case1 a b ds ih =>
    simp only [List.mem_cons, forall_eq_or_imp] at h
    obtain ⟨ha, hb, hds⟩ := h
    have hrest := ih hds (by simpa [Nat.add_assoc] using heven)
    cases hl : hexPairs l <;> simp [hexPairs, hexDigit_hexAscii, ha, hb, hrest, hl, pairedBytes, Except.map]
  | case2 ds hshort =>
    rcases ds with - | ⟨a, - | ⟨b, ds⟩⟩
    · cases hl : hexPairs l <;> simp [hl, pairedBytes, Except.map]
    · cases heven
    · exact absurd rfl (hshort a b ds)

/-- Two characters that are not both hex digits end the pairing. -/
theorem hexPairs_bad {p q : Byte} (h : ¬ (HexChar p ∧ HexChar q)) (l : Buffer) :
    hexPairs (asciiLower p :: asciiLower q :: l) = .error .hex := by
  by_cases hp : HexChar p
  · have hq := hexDigit_asciiLower_eq_none q fun hq => h ⟨hp, hq⟩
    cases hd : hexDigit (asciiLower p) <;> simp [hexPairs, hd, hq]
  · simp [hexPairs, hexDigit_asciiLower_eq_none p hp]

/-! ### Written literals (R250) -/

/-- A buffer's literal is a text of its bytes' digits. -/
theorem hexText_hexLiteral (capital : Bool) (bs : Buffer) :
    HexText (bs.flatMap fun b => [b.toNat / 16, b.toNat % 16]) (hexLiteral capital bs) := by
  induction bs with
  | nil => exact .nil
  | cons b bs ih =>
    have hhi : b.toNat / 16 < 16 := by have := b.isLt; omega
    have hlo : b.toNat % 16 < 16 := Nat.mod_lt _ (by decide)
    have hbody := HexText.digit capital hhi (.digit capital hlo (.filler (f := [0x20]) (by decide) ih))
    cases capital
    · exact .filler (f := [0x30, 0x78]) (by decide) hbody
    · exact .filler (f := [0x30, 0x58]) (by decide) hbody

theorem pairedBytes_digits (bs : Buffer) : pairedBytes (bs.flatMap fun b => [b.toNat / 16, b.toNat % 16]) = bs := by
  induction bs with
  | nil => rfl
  | cons b bs ih => simp [pairedBytes, ih, Nat.div_add_mod]

/-! ### HEXDEC -/

section
variable {s : State}

theorem exec_hexdec_ok {bs : Buffer} (hf : s.faulted = false) (h : hexDec s.operands.text = .ok bs) :
    exec .hexdec s = .next (s.ended { bytes := some bs }) :=
  exec_of_answer_ok ⟨hf, nofun⟩ (by simp only [answer, h]; rfl)

theorem exec_hexdec_error {c : Status} (hf : s.faulted = false) (h : hexDec s.operands.text = .error c) :
    exec .hexdec s = .next (s.ended { status := c }) :=
  exec_of_answer_error ⟨hf, nofun⟩ (by simp only [answer, h]; rfl)

end

theorem hexDec_hexText {ds : List Nat} {t : Buffer} (h : HexText ds t) : hexDec t = .ok (pairedBytes ds) := by
  rw [hexDec, hexText_clean h, hexPairs_digits (hexText_lt h)]

/-- Settles O33: the text is cut into pieces that clean apart, and the pairs are taken. -/
theorem hexdecReadsHexLiterals : Obligations.HexdecReadsHexLiterals := by
  intro s hf
  refine ⟨fun ds ht => exec_hexdec_ok hf (hexDec_hexText ht), fun capital bs ht => exec_hexdec_ok hf ?_,
    fun ds pre post c hpre heven hpost ht hx => exec_hexdec_ok hf ?_,
    fun ds pre mid rest p q hpre heven hmid ht hbad hp hq hxp hxq hxr => exec_hexdec_error hf ?_⟩
  · rw [ht, hexDec_hexText (hexText_hexLiteral capital bs), pairedBytes_digits]
  · have hclean : hexClean s.operands.text = ds.map (hexAscii false) ++ hexClean [c] := by
      rw [ht, hexClean_append fun h => hexText_head_not_x hpost h.2, hexClean_append (by simpa using hx),
        hexText_clean hpre, hexText_clean hpost]
      simp
    have hsingle : hexPairs (hexClean [c]) = .ok [] := by
      obtain rfl | hc := eq_or_ne c 0x20
      · rfl
      · rw [hexClean_singleton hc]
        rfl
    rw [hexDec, hclean, hexPairs_digits_append (hexText_lt hpre) heven, hsingle]
    simp [Except.map]
  · have hcut : ¬ ((pre ++ [p] ++ mid).getLast? = some 0x30 ∧ ∃ x ∈ [q].head?, IsX x) := by
      obtain rfl | hne := eq_or_ne mid []
      · simpa using hxq
      · have hlast := hexText_getLast_of_fillers hmid
        rw [List.getLast?_append_of_ne_nil _ hne]
        exact fun h => hlast h.1
    have hclean : hexClean s.operands.text =
        ds.map (hexAscii false) ++ asciiLower p :: asciiLower q :: hexClean rest := by
      rw [ht, hexClean_append (by rwa [List.getLast?_concat, Option.some_inj]), hexClean_append hcut,
        hexClean_append fun h => hexText_head_not_x hmid h.2, hexClean_append (by simpa using hxp),
        hexText_clean hpre, hexText_clean hmid, hexClean_singleton hp, hexClean_singleton hq]
      simp
    rw [hexDec, hclean, hexPairs_digits_append (hexText_lt hpre) heven, hexPairs_bad hbad]
    rfl

end Sys2Proof.Proofs.Literals
end

section
/-! PROOFS. Durations (spec/40_codec.md R260). The text is cut where its digits end; what stands behind them is a unit, or
a point, a fraction and a unit. -/

namespace Sys2Proof.Proofs.Durations

open Sys2Proof.Machine Sys2Proof.Proofs.Commands

/-! ### Digits -/

theorem isDigit_ascii : ∀ d : Fin 10, isDigit (BitVec.ofNat 8 (0x30 + d.val)) = true := by decide

theorem ascii_toNat : ∀ d : Fin 10, (BitVec.ofNat 8 (0x30 + d.val)).toNat - 0x30 = d.val := by decide

theorem exists_digit : ∀ b : Byte, isDigit b = true → ∃ d : Fin 10, b = BitVec.ofNat 8 (0x30 + d.val) := by decide

theorem isDigit_of_mem {ds : List (Fin 10)} : ∀ b ∈ asciiDigits ds, isDigit b = true := by
  simpa [asciiDigits] using fun d _ => isDigit_ascii d

theorem asciiDigits_append (ds fs : List (Fin 10)) : asciiDigits ds ++ asciiDigits fs = asciiDigits (ds ++ fs) :=
  List.map_append.symm

theorem asciiDigits_length (ds : List (Fin 10)) : (asciiDigits ds).length = ds.length := List.length_map _

theorem asciiDigits_eq_nil {ds : List (Fin 10)} : asciiDigits ds = [] ↔ ds = [] := List.map_eq_nil_iff

/-- The digits in front of a text are a list of ASCII digits. -/
theorem exists_takeWhile (t : Buffer) : ∃ ds, t.takeWhile isDigit = asciiDigits ds := by
  have hall : ∀ b ∈ t.takeWhile isDigit, ∃ d : Fin 10, b = BitVec.ofNat 8 (0x30 + d.val) :=
    fun b hb => exists_digit b (List.mem_takeWhile_imp hb)
  generalize t.takeWhile isDigit = l at hall
  induction l with
  | nil => exact ⟨[], rfl⟩
  | cons b l ih =>
    obtain ⟨d, rfl⟩ := hall b List.mem_cons_self
    obtain ⟨ds, rfl⟩ := ih fun c hc => hall c (List.mem_cons_of_mem _ hc)
    exact ⟨d :: ds, rfl⟩

theorem decimal_asciiDigits (ds : List (Fin 10)) : decimal (asciiDigits ds) = digitsValue ds := by
  simp only [decimal, asciiDigits, digitsValue, List.foldl_map, ascii_toNat]

/-- No digit stands in front of the text. -/
abbrev NoDigit (t : Buffer) : Prop := ∀ b ∈ t.head?, isDigit b = false

theorem takeWhile_noDigit {t : Buffer} (h : NoDigit t) : t.takeWhile isDigit = [] := by
  cases t with
  | nil => rfl
  | cons b t => exact List.takeWhile_cons_of_neg (by simpa [NoDigit] using h)

theorem dropWhile_noDigit {t : Buffer} (h : NoDigit t) : t.dropWhile isDigit = t := by
  cases t with
  | nil => rfl
  | cons b t => exact List.dropWhile_cons_of_neg (by simpa [NoDigit] using h)

/-- The digits in front of a text are cut off whole. -/
theorem takeWhile_digits {ds : List (Fin 10)} {t : Buffer} (h : NoDigit t) :
    (asciiDigits ds ++ t).takeWhile isDigit = asciiDigits ds := by
  rw [List.takeWhile_append_of_pos isDigit_of_mem, takeWhile_noDigit h, List.append_nil]

theorem dropWhile_digits {ds : List (Fin 10)} {t : Buffer} (h : NoDigit t) :
    (asciiDigits ds ++ t).dropWhile isDigit = t := by
  rw [List.dropWhile_append_of_pos isDigit_of_mem, dropWhile_noDigit h]

/-! ### Units and fractions -/

/-- The units are those of the table. -/
theorem unitNanos_eq_some_iff {t : Buffer} {n : Nat} : unitNanos t = some n ↔ (t, n) ∈ durationUnits := by
  unfold unitNanos durationUnits
  constructor
  · intro h
    split_ifs at h with h1 h2 h3 h4 h5 h6
    all_goals
      obtain rfl := Option.some.inj h
      subst_vars
      decide
  · simp only [List.mem_cons, Prod.mk.injEq, List.not_mem_nil, or_false]
    rintro (⟨rfl, rfl⟩ | ⟨rfl, rfl⟩ | ⟨rfl, rfl⟩ | ⟨rfl, rfl⟩ | ⟨rfl, rfl⟩ | ⟨rfl, rfl⟩) <;> rfl

/-- A unit is not empty, begins with no digit, and is no fraction. -/
theorem unit_form : ∀ u ∈ durationUnits, u.1 ≠ [] ∧ NoDigit u.1 ∧ splitFraction u.1 = ([], u.1) := by
  simp only [durationUnits, List.forall_mem_cons]
  decide

theorem splitFraction_point {fs : List (Fin 10)} {t : Buffer} (h : NoDigit t) :
    splitFraction ([0x2E] ++ asciiDigits fs ++ t) = (asciiDigits fs, t) :=
  Prod.ext (takeWhile_digits h) (dropWhile_digits h)

/-- A text is a point with fraction digits and more, or has no fraction. -/
theorem splitFraction_cases (t : Buffer) :
    (∃ fs, t = [0x2E] ++ asciiDigits fs ++ (splitFraction t).2) ∨ splitFraction t = ([], t) := by
  unfold splitFraction
  split
  · next r =>
    obtain ⟨fs, hfs⟩ := exists_takeWhile r
    refine .inl ⟨fs, ?_⟩
    rw [← hfs, List.append_assoc, List.takeWhile_append_dropWhile]
    rfl
  · exact .inr rfl

/-! ### The number of nanoseconds -/

section
variable {ds : List (Fin 10)} {t : Buffer}

/-- Digits, and behind them a text that is not empty: the unit behind the fraction decides. -/
theorem durationNanos_digits (hds : ds ≠ []) (ht : t ≠ []) (hdigit : NoDigit t) :
    durationNanos (asciiDigits ds ++ t) = (unitNanos (splitFraction t).2).map fun u =>
      decimal (asciiDigits ds ++ (splitFraction t).1) * u / 10 ^ (splitFraction t).1.length := by
  simp only [durationNanos, takeWhile_digits hdigit, dropWhile_digits hdigit, List.append_eq_nil_iff,
    asciiDigits_eq_nil, hds, ht, false_and, if_false]
  cases unitNanos (splitFraction t).2 <;> rfl

theorem durationNanos_seconds (hds : ds ≠ []) : durationNanos (asciiDigits ds) = some (digitsValue ds * 10 ^ 9) := by
  have htake : (asciiDigits ds).takeWhile isDigit = asciiDigits ds := List.takeWhile_eq_self_iff.mpr isDigit_of_mem
  have hdrop : (asciiDigits ds).dropWhile isDigit = [] := List.dropWhile_eq_nil_iff.mpr isDigit_of_mem
  simp [durationNanos, htake, hdrop, asciiDigits_eq_nil, hds, decimal_asciiDigits]

/-- Behind no digit stands nothing, or a unit alone. -/
theorem durationNanos_noDigit (ht : t ≠ []) (hdigit : NoDigit t) :
    durationNanos t = (unitNanos t).map fun _ => 0 := by
  simp only [durationNanos, takeWhile_noDigit hdigit, dropWhile_noDigit hdigit, ht, if_false, if_true]
  cases unitNanos t <;> rfl

end

/-- Every text is digits and a text with no digit in front. -/
theorem exists_digits (t : Buffer) : ∃ ds r, t = asciiDigits ds ++ r ∧ NoDigit r := by
  obtain ⟨ds, hds⟩ := exists_takeWhile t
  refine ⟨ds, t.dropWhile isDigit, ?_, ?_⟩
  · rw [← hds, List.takeWhile_append_dropWhile]
  · intro b hb
    have hhead := List.head?_dropWhile_not isDigit t
    rwa [Option.mem_def.mp hb] at hhead

/-- What R260's grammar does not allow denotes no number. -/
theorem durationNanos_other {t : Buffer} (h : ¬ DurationText t) : durationNanos t = none := by
  obtain ⟨ds, r, rfl, hr⟩ := exists_digits t
  have hunit {b : Buffer} (hu : ∀ u ∈ durationUnits, b ≠ u.1) : unitNanos b = none :=
    Option.eq_none_iff_forall_ne_some.mpr fun n hn => hu _ (unitNanos_eq_some_iff.mp hn) rfl
  obtain rfl | hne := eq_or_ne r []
  · obtain rfl | hds := eq_or_ne ds []
    · exact absurd (.inl rfl) h
    · exact absurd (.inr (.inl ⟨ds, hds, List.append_nil _⟩)) h
  · obtain rfl | hds := eq_or_ne ds []
    · rw [durationNanos_noDigit (by simpa [asciiDigits] using hne) (by simpa [asciiDigits] using hr)]
      rw [hunit fun u hu heq => h (.inr (.inr ⟨u, hu, .inl heq⟩))]
      rfl
    · rw [durationNanos_digits hds hne hr, hunit fun u hu heq => ?_]
      · rfl
      · obtain ⟨fs, hfs⟩ | hnone := splitFraction_cases r
        · exact h (.inr (.inr ⟨u, hu, .inr ⟨ds, hds, .inr ⟨fs, by rw [← heq]; simpa using hfs⟩⟩⟩))
        · rw [hnone] at heq
          exact h (.inr (.inr ⟨u, hu, .inr ⟨ds, hds, .inl (by rw [← heq])⟩⟩))

/-! ### DURPARSE -/

section
variable {s : State}

theorem exec_durparse_of_some {v : Nat} (hf : s.faulted = false) (h : durationNanos s.operands.text = some v) :
    exec .durparse s = .next (s.ended { dur := some (durationResult v) }) := by
  refine exec_of_answer_ok ⟨hf, nofun⟩ ?_
  have hresult : BitVec.ofInt 64 (durParse s.operands.text) = durationResult v := by
    simp only [durParse, h, durationResult]
    split_ifs
    · omega
    · rfl
    · exact BitVec.ofInt_natCast 64 v
    · omega
  rw [answer, hresult]

theorem exec_durparse_of_none (hf : s.faulted = false) (h : durationNanos s.operands.text = none) :
    exec .durparse s = .next (s.ended { dur := some (-1) }) := by
  refine exec_of_answer_ok ⟨hf, nofun⟩ ?_
  rw [answer, durParse, h]
  rfl

end

/-- Settles O34, by the form of the text. -/
theorem durparseReadsDurations : Obligations.DurparseReadsDurations := by
  intro s hf
  refine ⟨fun ds fs u v hds hu ht hlo hhi => ?_, fun ds u hds hu ht => ?_, fun ds hds ht => ?_, fun u hu ht => ?_,
    fun ht => ?_, fun ht => exec_durparse_of_none hf (durationNanos_other ht)⟩
  · obtain ⟨-, hdigit, -⟩ := unit_form u hu
    refine exec_durparse_of_some hf ?_
    rw [ht, List.append_assoc, List.append_assoc, ← List.append_assoc [_],
      durationNanos_digits hds (by simp) (by rintro b ⟨⟩; rfl), splitFraction_point hdigit, unitNanos_eq_some_iff.mpr hu,
      asciiDigits_append, decimal_asciiDigits, asciiDigits_length]
    exact congrArg some (Nat.div_eq_of_lt_le hlo hhi)
  · obtain ⟨hne, hdigit, hfrac⟩ := unit_form u hu
    refine exec_durparse_of_some hf ?_
    rw [ht, durationNanos_digits hds hne hdigit, hfrac, unitNanos_eq_some_iff.mpr hu]
    simp [decimal_asciiDigits]
  · exact exec_durparse_of_some hf (ht ▸ durationNanos_seconds hds)
  · obtain ⟨hne, hdigit, -⟩ := unit_form u hu
    refine exec_durparse_of_some (v := 0) hf ?_
    rw [ht, durationNanos_noDigit hne hdigit, unitNanos_eq_some_iff.mpr hu]
    rfl
  · exact exec_durparse_of_some (v := 0) hf (ht ▸ rfl)

end Sys2Proof.Proofs.Durations
end

section
/-! PROOFS. The packers (spec/41_packing.md R300, R310, R320, R330). A packer's bit cursor counts what COUNTBIT counts
(`packFrom_count`), and what is packed behind whole bytes does not depend on them (`packFrom_behind`). -/

namespace Sys2Proof.Proofs.Packing

open Sys2Proof.Machine Sys2Proof.Proofs.Check Sys2Proof.Proofs.Commands Sys2Proof.Proofs.Values
  Sys2Proof.Proofs.Invariants

/-! ### Values by value (R300, R310, R320) -/

/-- The packer's state after one value. -/
def packOne (grid : Nat) (ord : Order) (v : Value) (p : Packed) : Except Status Packed :=
  match v with
  | .bool b => .ok (packBool b p)
  | v => (writeValue ord v).map fun bs => packBytes grid bs p

/-- The count after one value. -/
def countOne (grid : Nat) (v : Value) (c : Nat) : Except Status Nat :=
  match v with
  | .bool _ => .ok (c + 1)
  | v => (lenBit v).map fun w => countWidth grid w c

section
variable {grid : Nat} {ord : Order}

theorem packFrom_cons (v : Value) (vs : List Value) (p : Packed) :
    packFrom grid ord (v :: vs) p = (packOne grid ord v p).bind (packFrom grid ord vs) := by
  cases v with
  | bool b => rfl
  | _ => simp only [packFrom, packOne]; cases writeValue ord _ <;> rfl

theorem countFrom_cons (v : Value) (vs : List Value) (c : Nat) :
    countFrom grid (v :: vs) c = (countOne grid v c).bind (countFrom grid vs) := by
  cases v with
  | bool b => rfl
  | _ => simp only [countFrom, countOne]; cases lenBit _ <;> rfl

theorem packFrom_append (vs ws : List Value) (p : Packed) :
    packFrom grid ord (vs ++ ws) p = (packFrom grid ord vs p).bind (packFrom grid ord ws) := by
  induction vs generalizing p with
  | nil => rfl
  | cons v vs ih =>
    rw [List.cons_append, packFrom_cons, packFrom_cons]
    cases packOne grid ord v p with
    | error c => rfl
    | ok q => exact ih q

theorem countFrom_append (vs ws : List Value) (c : Nat) :
    countFrom grid (vs ++ ws) c = (countFrom grid vs c).bind (countFrom grid ws) := by
  induction vs generalizing c with
  | nil => rfl
  | cons v vs ih =>
    rw [List.cons_append, countFrom_cons, countFrom_cons]
    cases countOne grid v c with
    | error e => rfl
    | ok n => exact ih n

theorem packOne_of_write {v : Value} {bs : Buffer} {p : Packed} (hv : ∀ b, v ≠ .bool b)
    (hw : writeValue ord v = .ok bs) : packOne grid ord v p = .ok (packBytes grid bs p) := by
  cases v with
  | bool b => exact absurd rfl (hv b)
  | _ => simp only [packOne, hw, Except.map]

theorem packOne_of_error {v : Value} {c : Status} {p : Packed} (hw : writeValue ord v = .error c) :
    packOne grid ord v p = .error c := by
  cases v with
  | bool b => cases hw
  | _ => simp only [packOne, hw, Except.map]

theorem countOne_of_width {v : Value} {w c : Nat} (hv : ∀ b, v ≠ .bool b) (hw : lenBit v = .ok w) :
    countOne grid v c = .ok (countWidth grid w c) := by
  cases v with
  | bool b => exact absurd rfl (hv b)
  | _ => simp only [countOne, hw, Except.map]

/-- Each value of the list is one that WRITE can write. -/
theorem packFrom_exists {vs : List Value} (h : ∀ v ∈ vs, ∃ bs, writeValue ord v = .ok bs) (p : Packed) :
    ∃ q, packFrom grid ord vs p = .ok q := by
  induction vs generalizing p with
  | nil => exact ⟨p, rfl⟩
  | cons v vs ih =>
    obtain ⟨⟨bs, hw⟩, hvs⟩ := List.forall_mem_cons.mp h
    have hone : ∃ q, packOne grid ord v p = .ok q := by
      by_cases hv : ∃ b, v = .bool b
      · obtain ⟨b, rfl⟩ := hv
        exact ⟨_, rfl⟩
      · exact ⟨_, packOne_of_write (fun b hb => hv ⟨b, hb⟩) hw⟩
    obtain ⟨q, hq⟩ := hone
    obtain ⟨r, hr⟩ := ih hvs q
    exact ⟨r, by rw [packFrom_cons, hq]; exact hr⟩

end

/-! ### The bit cursor (R300, R330) -/

/-- The bytes emitted are the fewest that hold the bits up to the cursor. -/
abbrev Fits (p : Packed) : Prop := p.c ≤ 8 * p.out.length ∧ 8 * p.out.length < p.c + 8

theorem fits_empty : Fits ⟨[], 0⟩ := by decide

theorem orLast_length {out : Buffer} (m : Byte) (h : out ≠ []) : (orLast out m).length = out.length := by
  have := List.length_pos_iff.mpr h
  simp only [orLast, List.length_append, List.length_dropLast, List.length_singleton]
  omega

theorem orLast_concat (l : Buffer) (x m : Byte) : orLast (l ++ [x]) m = l ++ [x ||| m] := by
  simp [orLast]

/-- A boolean's byte: a new one on a byte boundary, else the last one. -/
theorem packBool_out {b : Bool} {p : Packed} (hp : Fits p) :
    ∃ (l : Buffer) (x : Byte), (if p.c % 8 = 0 then p.out ++ [0x00] else p.out) = l ++ [x] ∧ l.length = p.c / 8 ∧
      packBool b p = ⟨l ++ [if b then x ||| 1 <<< (p.c % 8) else x], p.c + 1⟩ := by
  obtain ⟨hle, hlt⟩ := hp
  obtain ⟨l, x, hout, hl⟩ : ∃ (l : Buffer) (x : Byte),
      (if p.c % 8 = 0 then p.out ++ [0x00] else p.out) = l ++ [x] ∧ l.length = p.c / 8 := by
    split
    · exact ⟨p.out, 0x00, rfl, by omega⟩
    · have hne : p.out ≠ [] := by
        rintro h
        rw [h, List.length_nil] at hle
        omega
      refine ⟨_, _, (List.dropLast_append_getLast hne).symm, ?_⟩
      rw [List.length_dropLast]
      omega
  refine ⟨l, x, hout, hl, ?_⟩
  simp only [packBool, hout, orLast_concat]
  cases b <;> rfl

theorem packBool_fits {b : Bool} {p : Packed} (hp : Fits p) : Fits (packBool b p) ∧ (packBool b p).c = p.c + 1 := by
  obtain ⟨l, x, -, hl, heq⟩ := packBool_out (b := b) hp
  have hlen (y : Byte) : (l ++ [y]).length = p.c / 8 + 1 := by rw [List.length_append, hl, List.length_singleton]
  rw [heq, Fits, hlen]
  exact ⟨by constructor <;> simp only <;> omega, rfl⟩

/-- The bytes of a value move the cursor as COUNTBIT does, pad included. -/
theorem packBytes_fits {grid : Nat} {bs : Buffer} {p : Packed} (hp : Fits p) :
    Fits (packBytes grid bs p) ∧ (packBytes grid bs p).c = countWidth grid (8 * bs.length) p.c := by
  have hround : roundUp p.c 8 = 8 * p.out.length :=
    roundUp_eq_of_roundsTo ⟨Nat.dvd_mul_right _ _, hp⟩
  by_cases hbs : bs = []
  · subst hbs
    exact ⟨hp, rfl⟩
  · have hlen : bs.length ≠ 0 := mt List.length_eq_zero_iff.mp hbs
    have hpad : grid = 16 ∧ 2 ≤ bs.length ∧ p.out.length % 2 = 1 ↔
        grid = 16 ∧ 16 ≤ 8 * bs.length ∧ 8 * p.out.length / 8 % 2 = 1 := by omega
    simp only [packBytes, if_neg hbs, countWidth, mul_eq_zero, hlen, or_false, OfNat.ofNat_ne_zero, if_false, countWide,
      hround, ← hpad, packPad, Fits]
    split <;> simp only [List.length_append, List.length_singleton] <;> omega

/-- A packer's cursor is COUNTBIT's count, and its bytes are the fewest that hold the bits. -/
theorem packFrom_count {grid : Nat} {ord : Order} {vs : List Value} {p q : Packed} (hp : Fits p)
    (h : packFrom grid ord vs p = .ok q) : Fits q ∧ countFrom grid vs p.c = .ok q.c := by
  induction vs generalizing p with
  | nil => cases h; exact ⟨hp, rfl⟩
  | cons v vs ih =>
    rw [packFrom_cons] at h
    rw [countFrom_cons]
    by_cases hv : ∃ b, v = .bool b
    · obtain ⟨b, rfl⟩ := hv
      obtain ⟨hfits, hc⟩ := packBool_fits (b := b) hp
      obtain ⟨hq, hcount⟩ := ih hfits h
      rw [hc] at hcount
      exact ⟨hq, hcount⟩
    · have hv' : ∀ b, v ≠ .bool b := fun b hb => hv ⟨b, hb⟩
      cases hw : writeValue ord v with
      | error c => rw [packOne_of_error hw] at h; cases h
      | ok bs =>
        rw [packOne_of_write hv' hw] at h
        obtain ⟨hfits, hc⟩ := packBytes_fits (grid := grid) (bs := bs) hp
        obtain ⟨hq, hcount⟩ := ih hfits h
        rw [countOne_of_width hv' (lenBit_of_write hw hv')]
        exact ⟨hq, hc ▸ hcount⟩

/-! ### Counting alone (R300, R301) -/

section
variable {grid : Nat}

theorem lenBit_error {v : Value} {e : Status} (h : lenBit v = .error e) : e = .hex := by
  cases v with
  | bytes t =>
    cases ht : hexDec t with
    | ok bs => rw [lenBit_bytes_of_ok ht] at h; cases h
    | error c => rw [lenBit_bytes_of_error ht] at h; cases h; rfl
  | _ => cases h

theorem countOne_countedAs (v : Value) (c : Nat) : countOne grid (countedAs v) c = countOne grid v c := by
  cases v <;> rfl

theorem countFrom_countedAs (vs : List Value) (c : Nat) : countFrom grid (vs.map countedAs) c = countFrom grid vs c := by
  induction vs generalizing c with
  | nil => rfl
  | cons v vs ih =>
    rw [List.map_cons, countFrom_cons, countFrom_cons, countOne_countedAs]
    exact congrArg _ (funext ih)

theorem countFrom_malformed {vs : List Value} {t : Buffer} {e : Status} (hmem : .bytes t ∈ vs)
    (ht : hexDec t = .error e) (c : Nat) : countFrom grid vs c = .error .hex := by
  induction vs generalizing c with
  | nil => cases hmem
  | cons v vs ih =>
    rw [countFrom_cons]
    obtain rfl | hmem := List.mem_cons.mp hmem
    · simp [countOne, lenBit_bytes_of_error ht, Except.map, Except.bind]
    · cases hone : countOne grid v c with
      | ok n => exact ih hmem n
      | error e =>
        have he : e = .hex := by
          cases v with
          | bool b => cases hone
          | _ =>
            simp only [countOne] at hone
            cases hlen : lenBit _ <;> rw [hlen] at hone <;> cases hone
            exact lenBit_error hlen
        rw [he]
        rfl

theorem countFrom_bools (bs : List Bool) (c : Nat) : countFrom grid (bs.map .bool) c = .ok (c + bs.length) := by
  induction bs generalizing c with
  | nil => rfl
  | cons b bs ih =>
    rw [List.map_cons, countFrom_cons, List.length_cons]
    exact (ih (c + 1)).trans (congrArg _ (by omega))

theorem countBits_g8 (vs : List Value) : countBits 8 vs = countFrom 8 vs 0 := by
  unfold countBits
  cases countFrom 8 vs 0 <;> rfl

end

/-- Settles O35: the cursor laws, and COUNTBIT value by value. -/
theorem packedLengthsAgreeWithCount : Obligations.PackedLengthsAgreeWithCount := by
  refine ⟨fun s ord hf hvals => ?_, fun s grid vals hf => ?_, fun s front v bools n w hf => ?_⟩
  · obtain ⟨p, hp⟩ := packFrom_exists (grid := 8) hvals ⟨[], 0⟩
    obtain ⟨q, hq⟩ := packFrom_exists (grid := 16) hvals ⟨[], 0⟩
    obtain ⟨hpfits, hpcount⟩ := packFrom_count fits_empty hp
    obtain ⟨⟨hle, hlt⟩, hqcount⟩ := packFrom_count fits_empty hq
    refine ⟨p.c, ceilDiv q.c 16, p.out, padEven q.out, exec_of_answer_ok ⟨hf, nofun⟩ ?_,
      exec_of_answer_ok ⟨hf, nofun⟩ ?_, exec_of_answer_ok ⟨hf, nofun⟩ ?_, exec_of_answer_ok ⟨hf, nofun⟩ ?_, hpfits.1,
      hpfits.2, ?_⟩
    · simp only [answer, gridBits, countBits, hpcount]
      rfl
    · simp only [answer, gridBits, countBits, hqcount]
      rfl
    · simp only [answer, pack8Bytes, hp]
      rfl
    · simp only [answer, pack16Bytes, hq]
      rfl
    · simp only [padEven, ceilDiv]
      split
      · rw [List.length_append, List.length_singleton]
        omega
      · omega
  · have hp : Passes s (.countbit grid) := ⟨hf, nofun⟩
    refine ⟨_, (answers_iff _ _ hp rfl).mpr rfl, (answers_iff _ _ hp rfl).mpr ?_, fun ⟨t, e, hmem, ht⟩ => ?_⟩
    · simp only [countBits, countFrom_countedAs]
    · simp only [countBits, countFrom_malformed hmem ht]
      rfl
  · have hp : Passes s (.countbit .g8) := ⟨hf, nofun⟩
    refine ⟨(answers_iff _ _ hp rfl).mpr ?_, fun hfront hlen hw =>
      ⟨_, roundsTo_roundUp (by decide), (answers_iff _ _ hp rfl).mpr ?_⟩⟩
    · simp only [gridBits, countBits_g8, countFrom_bools, Nat.zero_add]
      rfl
    have hcount : countFrom 8 front 0 = .ok n := by
      have hresult := (answers_iff _ _ hp rfl).mp hfront
      simp only [gridBits, countBits_g8] at hresult
      cases h : countFrom 8 front 0 <;> rw [h] at hresult <;> cases hresult
      rfl
    have hv : ∀ b, v ≠ .bool b := fun b hb => by
      subst hb
      cases hlen
      exact absurd hw (by decide)
    have hwide : countWidth 8 w n = roundUp n 8 + w := by
      rw [countWidth, if_neg (by omega), countWide, if_neg (by simp)]
    simp only [gridBits, countBits_g8, countFrom_append, hcount, Except.bind, countFrom_cons, countOne_of_width hv hlen,
      hwide, countFrom, countFrom_bools]
    rfl

end Sys2Proof.Proofs.Packing
end

section
/-! PROOFS. What the packers emit (spec/41_packing.md R310, R320; spec/20_memory.md R84). Booleans set one bit each
(`packFrom_bools`); what is packed behind whole bytes does not depend on them (`packFrom_behind`); and PACK16 differs from
PACK8 only at values of two or more bytes (`packFrom_narrow`). -/

namespace Sys2Proof.Proofs.PackedBytes

open Sys2Proof.Machine Sys2Proof.Proofs.Commands Sys2Proof.Proofs.Invariants Sys2Proof.Proofs.Packing

/-! ### Booleans, bit by bit (R310) -/

/-- Bit i of a buffer, from bit 0 of byte 0 upward; zero behind its end. -/
def packedBit (out : Buffer) (i : Nat) : Bool := (out.getD (i / 8) 0).getLsbD (i % 8)

theorem packedBit_concat (l : Buffer) (y : Byte) (i : Nat) :
    packedBit (l ++ [y]) i = if i / 8 = l.length then y.getLsbD (i % 8) else packedBit l i := by
  unfold packedBit
  obtain hlt | heq | hgt := lt_trichotomy (i / 8) l.length
  · rw [if_neg hlt.ne, List.getD_append _ _ _ _ hlt]
  · rw [if_pos heq, heq, List.getD_append_right _ _ _ _ le_rfl, Nat.sub_self]
    rfl
  · rw [if_neg hgt.ne', List.getD_eq_default _ _ (by simp; omega), List.getD_eq_default _ _ hgt.le]

theorem packedBit_concat_zero (l : Buffer) (i : Nat) : packedBit (l ++ [0x00]) i = packedBit l i := by
  rw [packedBit_concat]
  split
  · next h => simp [packedBit, h]
  · rfl

theorem one_shiftLeft_bit : ∀ k < 8, ∀ j < 8, (BitVec.ofNat 8 (1 <<< k)).getLsbD j = decide (j = k) := by decide

/-- A boolean sets the bit at the cursor and leaves every other one. -/
theorem packedBit_packBool {b : Bool} {p : Packed} (hp : Fits p) (i : Nat) :
    packedBit (packBool b p).out i = (packedBit p.out i || (b && decide (i = p.c))) := by
  obtain ⟨l, x, hout, hl, heq⟩ := packBool_out (b := b) hp
  have hold : packedBit p.out i = packedBit (l ++ [x]) i := by
    rw [← hout]
    split
    · exact (packedBit_concat_zero p.out i).symm
    · rfl
  have hcursor : i = p.c ↔ i / 8 = p.c / 8 ∧ i % 8 = p.c % 8 := by omega
  rw [heq, hold]
  simp only [packedBit_concat, hl, hcursor]
  split
  · next hi =>
    cases b with
    | false => simp
    | true =>
      simp [BitVec.getLsbD_or, one_shiftLeft_bit _ (Nat.mod_lt p.c (by decide)) _ (Nat.mod_lt i (by decide)), hi]
  · next hi => simp [hi]

/-- PACK8 of booleans puts each in its bit. -/
theorem packFrom_bools (grid : Nat) (ord : Order) (bs : List Bool) :
    ∃ p, packFrom grid ord (bs.map .bool) ⟨[], 0⟩ = .ok p ∧ p.c = bs.length ∧ Fits p ∧
      ∀ i, packedBit p.out i = bs.getD i false := by
  induction bs using List.reverseRecOn with
  | nil => exact ⟨_, rfl, rfl, fits_empty, fun i => by simp [packedBit]⟩
  | append_singleton bs b ih =>
    obtain ⟨p, hpack, hc, hfits, hbits⟩ := ih
    obtain ⟨hfits', hc'⟩ := packBool_fits (b := b) hfits
    refine ⟨packBool b p, ?_, by rw [hc', hc, List.length_append, List.length_singleton], hfits', fun i => ?_⟩
    · rw [List.map_append, packFrom_append, hpack]
      rfl
    · rw [packedBit_packBool hfits, hbits, hc]
      obtain hlt | rfl | hgt := lt_trichotomy i bs.length
      · rw [List.getD_append _ _ _ _ hlt]
        simp [hlt.ne]
      · rw [List.getD_append_right _ _ _ _ le_rfl]
        simp
      · rw [List.getD_eq_default _ _ hgt.le, List.getD_eq_default _ _ (by simp; omega)]
        simp [hgt.ne']

/-! ### Behind whole bytes (R310, R320) -/

/-- What is packed, behind the bytes f. -/
def behind (f : Buffer) (p : Packed) : Packed := ⟨f ++ p.out, 8 * f.length + p.c⟩

section
variable {ord : Order} {f : Buffer} {p : Packed}

theorem packBool_behind {b : Bool} (hp : Fits p) : packBool b (behind f p) = behind f (packBool b p) := by
  obtain ⟨l, x, hout, -, heq⟩ := packBool_out (b := b) hp
  have hmod : (8 * f.length + p.c) % 8 = p.c % 8 := by omega
  have hopen : (if (behind f p).c % 8 = 0 then (behind f p).out ++ [0x00] else (behind f p).out) = f ++ l ++ [x] := by
    rw [List.append_assoc, ← hout]
    simp only [behind, hmod]
    split
    · rw [List.append_assoc]
    · rfl
  rw [heq, packBool]
  simp only [hopen, orLast_concat]
  cases b <;> simp [behind, hmod, Nat.add_assoc]

theorem packBytes_behind (bs : Buffer) : packBytes 8 bs (behind f p) = behind f (packBytes 8 bs p) := by
  unfold packBytes
  split
  · rfl
  · simp [packPad, behind, Nat.mul_add]

/-- PACK8 goes on behind whole bytes as it would in an empty buffer. -/
theorem packFrom_behind (vs : List Value) (hp : Fits p) :
    packFrom 8 ord vs (behind f p) = (packFrom 8 ord vs p).map (behind f) := by
  induction vs generalizing p with
  | nil => rfl
  | cons v vs ih =>
    rw [packFrom_cons, packFrom_cons]
    by_cases hv : ∃ b, v = .bool b
    · obtain ⟨b, rfl⟩ := hv
      simp only [packOne, packBool_behind hp]
      exact ih (packBool_fits hp).1
    · have hv' : ∀ b, v ≠ .bool b := fun b hb => hv ⟨b, hb⟩
      cases hw : writeValue ord v with
      | error c =>
        rw [packOne_of_error hw, packOne_of_error hw]
        rfl
      | ok bs =>
        rw [packOne_of_write hv' hw, packOne_of_write hv' hw, packBytes_behind]
        exact ih (packBytes_fits hp).1

/-- PACK16 packs values of at most one byte as PACK8 does. -/
theorem packFrom_narrow {vs : List Value} (h : ∀ v ∈ vs, ∃ bs, writeValue ord v = .ok bs ∧ bs.length ≤ 1)
    (p : Packed) : packFrom 16 ord vs p = packFrom 8 ord vs p := by
  induction vs generalizing p with
  | nil => rfl
  | cons v vs ih =>
    obtain ⟨⟨bs, hw, hlen⟩, hvs⟩ := List.forall_mem_cons.mp h
    rw [packFrom_cons, packFrom_cons]
    have hone : packOne 16 ord v p = packOne 8 ord v p := by
      by_cases hv : ∃ b, v = .bool b
      · obtain ⟨b, rfl⟩ := hv
        rfl
      · have hv' : ∀ b, v ≠ .bool b := fun b hb => hv ⟨b, hb⟩
        have hpad : packPad 16 bs p.out = packPad 8 bs p.out := by
          rw [packPad, packPad, if_neg (by omega), if_neg (by omega)]
        rw [packOne_of_write hv' hw, packOne_of_write hv' hw, packBytes, packBytes, hpad]
    rw [hone]
    exact congrArg _ (funext (ih hvs))

/-- A value with bytes ends on a whole byte: what follows is packed behind it, and behind the pad before it. -/
theorem packFrom_value {grid : Nat} {v : Value} {w : Buffer} (hv : ∀ b, v ≠ .bool b) (hw : writeValue ord v = .ok w)
    (hne : w ≠ []) : packFrom grid ord [v] p = .ok (behind (packPad grid w p.out ++ w) ⟨[], 0⟩) := by
  rw [packFrom_cons, packOne_of_write hv hw, packBytes, if_neg hne]
  simp [Except.bind, packFrom, behind]

/-- A value of no bytes emits nothing. -/
theorem packFrom_no_bytes {grid : Nat} {v : Value} (hw : writeValue ord v = .ok []) : packFrom grid ord [v] p = .ok p := by
  have hv : ∀ b, v ≠ .bool b := by
    rintro b rfl
    cases hw
  rw [packFrom_cons, packOne_of_write hv hw]
  rfl

theorem packFrom_refused {grid : Nat} {v : Value} {c : Status} (hw : writeValue ord v = .error c) :
    packFrom grid ord [v] p = .error c := by
  rw [packFrom_cons, packOne_of_error hw]
  rfl

end

/-! ### The commands -/

section
variable {s : State} {ord : Order} {vals : List Value} {f : Buffer}

theorem answers_pack8_iff (hf : s.faulted = false) : s.Answers (.pack8 ord) { vals := vals } { bytes := some f } ↔
    ∃ p, packFrom 8 ord vals ⟨[], 0⟩ = .ok p ∧ p.out = f := by
  rw [answers_iff s _ (i := .pack8 ord) ⟨hf, nofun⟩ rfl, pack8Bytes]
  cases packFrom 8 ord vals ⟨[], 0⟩ <;> simp [Except.map, resultOf]

theorem answers_pack16_iff (hf : s.faulted = false) : s.Answers (.pack16 ord) { vals := vals } { bytes := some f } ↔
    ∃ p, packFrom 16 ord vals ⟨[], 0⟩ = .ok p ∧ evened p.out = f := by
  rw [answers_iff s _ (i := .pack16 ord) ⟨hf, nofun⟩ rfl, pack16Bytes]
  cases packFrom 16 ord vals ⟨[], 0⟩ <;> simp [Except.map, resultOf, evened, padEven]

/-- Either packer answers from the list's packing in its grid. -/
theorem answers_pack_congr {i : Instr} {vals' : List Value} {r : Result} (hf : s.faulted = false)
    (hi : i = .pack8 ord ∨ i = .pack16 ord)
    (h : ∀ grid, packFrom grid ord vals ⟨[], 0⟩ = packFrom grid ord vals' ⟨[], 0⟩) :
    s.Answers i { vals := vals } r ↔ s.Answers i { vals := vals' } r := by
  obtain rfl | rfl := hi
  · rw [answers_iff s _ (i := .pack8 ord) ⟨hf, nofun⟩ rfl, answers_iff s _ (i := .pack8 ord) ⟨hf, nofun⟩ rfl]
    simp only [pack8Bytes, h]
  · rw [answers_iff s _ (i := .pack16 ord) ⟨hf, nofun⟩ rfl, answers_iff s _ (i := .pack16 ord) ⟨hf, nofun⟩ rfl]
    simp only [pack16Bytes, h]

theorem answers_pack_error {i : Instr} {c : Status} (hf : s.faulted = false) (hi : i = .pack8 ord ∨ i = .pack16 ord)
    (h : ∀ grid, packFrom grid ord vals ⟨[], 0⟩ = .error c) : s.Answers i { vals := vals } { status := c } := by
  obtain rfl | rfl := hi
  · rw [answers_iff s _ (i := .pack8 ord) ⟨hf, nofun⟩ rfl, pack8Bytes, h]
    rfl
  · rw [answers_iff s _ (i := .pack16 ord) ⟨hf, nofun⟩ rfl, pack16Bytes, h]
    rfl

end

/-- Settles O36: the list is packed in parts, each behind the one before. -/
theorem packersEmitWrittenBytesInOrder : Obligations.PackersEmitWrittenBytesInOrder := by
  intro s ord hf
  refine ⟨?_, ?_, ?_, ?_, ?_⟩
  · intro bs hvals
    obtain ⟨p, hpack, hc, hfits, hbits⟩ := packFrom_bools 8 ord bs
    refine ⟨p.out, exec_of_answer_ok ⟨hf, nofun⟩ ?_, hc ▸ hfits.1, hc ▸ hfits.2, hbits⟩
    simp only [answer, pack8Bytes, hvals, hpack]
    rfl
  · intro front v bools f w q hv hw hne hfront hbools
    obtain ⟨p, hp, rfl⟩ := (answers_pack8_iff hf).mp hfront
    obtain ⟨r, hr, rfl⟩ := (answers_pack8_iff hf).mp hbools
    refine (answers_pack8_iff hf).mpr ⟨behind (p.out ++ w) r, ?_, rfl⟩
    rw [packFrom_append, packFrom_append, hp, Except.bind, packFrom_value hv hw hne, Except.bind,
      packFrom_behind _ fits_empty, hr]
    rfl
  · intro front narrow v f w q hv hw hlen hnarrow hq
    obtain ⟨r, hr, rfl⟩ := (answers_pack8_iff hf).mp hq
    refine ⟨(answers_pack16_iff hf).mpr ⟨r, (packFrom_narrow hnarrow _).trans hr, rfl⟩, fun hfront => ?_⟩
    obtain ⟨p, hp, rfl⟩ := (answers_pack16_iff hf).mp hfront
    refine (answers_pack16_iff hf).mpr ⟨behind (evened p.out ++ w) r, ?_, rfl⟩
    have hne : w ≠ [] := by
      rintro rfl
      cases hlen
    have hpad : packPad 16 w p.out = evened p.out := by simp [packPad, evened, hlen]
    rw [packFrom_append, packFrom_append, hp, Except.bind, packFrom_value hv hw hne, Except.bind,
      packFrom_narrow hnarrow, packFrom_behind _ fits_empty, hr, hpad]
    rfl
  · intro front back v r i hi hw hr
    refine (answers_pack_congr hf hi fun grid => ?_).mp hr
    simp only [packFrom_append]
    cases packFrom grid ord front ⟨[], 0⟩ with
    | error c => rfl
    | ok p => simp only [Except.bind, packFrom_no_bytes hw]
  · intro front back v c i hi hfront hw
    refine answers_pack_error hf hi fun grid => ?_
    obtain ⟨p, hp⟩ := packFrom_exists (grid := grid) hfront ⟨[], 0⟩
    simp only [packFrom_append, hp, Except.bind, packFrom_refused hw]

end Sys2Proof.Proofs.PackedBytes
end

section
/-! PROOFS. The template compiler (spec/42_template.md R410, R420, R430). COMMIT's checks run one after the other, and
its scan carries its findings along; here each check is the first error of a list (`raising`), and the scan's variables
behind the tokens `before` are what those tokens say by their positions (`scanOf`). So COMMIT compiles `templateOf`, or
raises `commitFault` (`compiled_eq`). -/

namespace Sys2Proof.Proofs.Compiler

open Sys2Proof.Machine

/-! ### First errors (R430) -/

/-- The answer x, unless there is an error. -/
def raising {α : Type} (f : Option Status) (x : α) : Except Status α :=
  match f with
  | some c => .error c
  | none => .ok x

@[simp] theorem raising_none {α : Type} (x : α) : raising none x = .ok x := rfl
@[simp] theorem raising_some {α : Type} (c : Status) (x : α) : raising (some c) x = .error c := rfl

theorem firstOf_append (l m : List (Option Status)) : firstOf (l ++ m) = (firstOf l).or (firstOf m) :=
  List.findSome?_append

@[simp] theorem firstOf_nil : firstOf [] = none := rfl

theorem firstOf_cons (x : Option Status) (l : List (Option Status)) : firstOf (x :: l) = x.or (firstOf l) := by
  cases x <;> rfl

theorem firstOf_eq_none_iff {l : List (Option Status)} : firstOf l = none ↔ ∀ x ∈ l, x = none :=
  List.findSome?_eq_none_iff

theorem mem_of_firstOf {l : List (Option Status)} {c : Status} (h : firstOf l = some c) : some c ∈ l := by
  obtain ⟨x, hx, hc⟩ := List.exists_of_findSome?_eq_some h
  exact hc ▸ hx

theorem failing_eq_none_iff {p : Prop} [Decidable p] {c : Status} : failing p c = none ↔ ¬ p := by
  unfold failing
  split <;> simp_all

theorem andThen_raising (f g : Option Status) : andThen (raising f ()) (raising g ()) = raising (f.or g) () := by
  cases f <;> rfl

/-! ### Token codes (R106) -/

/-- A code that R106 gives a token: a marker or a constant. -/
abbrev Assigned (c : Byte) : Prop := c = lenCode ∨ c = dataCode ∨ c = crcCode ∨ IsConst c

section
variable (k : Fin Config.constSlots)

theorem toNat_tokenCode : (tokenCode (.const k)).toNat = 128 + k.val := by
  have hk : k.val < 128 := k.isLt
  simp only [tokenCode, BitVec.toNat_ofNat]
  omega

@[simp] theorem isConst_tokenCode : IsConst (tokenCode (.const k)) := by
  rw [IsConst, toNat_tokenCode]
  exact Nat.le_add_right _ _

@[simp] theorem tokenSlot_tokenCode : tokenSlot (tokenCode (.const k)) = k := by
  have hk : k.val < 128 := k.isLt
  apply Fin.ext
  simp only [tokenSlot, toNat_tokenCode]
  omega

end

theorem tokenCode_tokenSlot {c : Byte} (h : IsConst c) : tokenCode (.const (tokenSlot c)) = c := by
  apply BitVec.eq_of_toNat_eq
  have hc := c.isLt
  rw [toNat_tokenCode, tokenSlot]
  dsimp only
  omega

theorem not_isConst_len : ¬ IsConst lenCode := by decide
theorem not_isConst_data : ¬ IsConst dataCode := by decide
theorem not_isConst_crc : ¬ IsConst crcCode := by decide

section
variable {c : Byte}

theorem ne_marker (h : IsConst c) : c ≠ lenCode ∧ c ≠ dataCode ∧ c ≠ crcCode :=
  ⟨ne_of_apply_ne IsConst fun heq => not_isConst_len (heq ▸ h),
    ne_of_apply_ne IsConst fun heq => not_isConst_data (heq ▸ h),
    ne_of_apply_ne IsConst fun heq => not_isConst_crc (heq ▸ h)⟩

theorem tokenOf_const (h : IsConst c) : tokenOf c = .const (tokenSlot c) := by
  obtain ⟨hlen, hdata, hcrc⟩ := ne_marker h
  exact (if_neg hlen).trans ((if_neg hdata).trans ((if_neg hcrc).trans (if_pos h)))

theorem tokenOf_reserved (h : ¬ Assigned c) : tokenOf c = .reserved c := by
  obtain ⟨hlen, hdata, hcrc, hconst⟩ : c ≠ lenCode ∧ c ≠ dataCode ∧ c ≠ crcCode ∧ ¬ IsConst c := by
    simpa only [Assigned, not_or] using h
  exact (if_neg hlen).trans ((if_neg hdata).trans ((if_neg hcrc).trans (if_neg hconst)))

end

/-- The codes without a token are 0x00 and 0x04 to 0x7F. -/
theorem reserved_iff (c : Byte) : c = 0x00 ∨ (0x03 < c.toNat ∧ c.toNat < 0x80) ↔ ¬ Assigned c := by
  have hnat (b : Byte) : c = b ↔ c.toNat = b.toNat := BitVec.toNat_inj.symm
  have hzero : (0x00 : Byte).toNat = 0 := rfl
  have hlen : lenCode.toNat = 1 := rfl
  have hdata : dataCode.toNat = 2 := rfl
  have hcrc : crcCode.toNat = 3 := rfl
  rw [Assigned, hnat, hnat lenCode, hnat dataCode, hnat crcCode, hzero, hlen, hdata, hcrc, IsConst]
  omega

/-! ### VALIDATE_TOKENS (R420 step 1) -/

/-- The codes a list does not admit. -/
def barred : ListKind → List Byte
  | .fmt => []
  | .lenList => [lenCode]
  | .crcList => [crcCode]

section
variable (s : State)

theorem codeFault_of_assigned {bar : List Byte} {c : Byte} (h : Assigned c) (hbar : c ∉ bar) :
    codeFault s bar c = failing (IsConst c ∧ s.consts[tokenSlot c].valid = false) .cfgUnknownConst :=
  if_neg fun hor => hor.elim (fun h0 => (reserved_iff c).mp (.inl h0) h)
    fun hor => hor.elim (fun h1 => (reserved_iff c).mp (.inr h1) h) hbar

theorem validateToken_eq (l : ListKind) (c : Byte) :
    validateToken s.consts l (tokenOf c) = raising (codeFault s (barred l) c) () := by
  by_cases ha : Assigned c
  · obtain rfl | rfl | rfl | hconst := id ha
    · cases l <;> rfl
    · cases l <;> rfl
    · cases l <;> rfl
    · obtain ⟨hlen, hdata, hcrc⟩ := ne_marker hconst
      have hbar : c ∉ barred l := by cases l <;> simp [barred, hlen, hcrc]
      rw [tokenOf_const hconst, codeFault_of_assigned s ha hbar, failing, validateToken]
      cases s.consts[tokenSlot c].valid <;> simp [hconst]
  · rw [tokenOf_reserved ha, codeFault, if_pos]
    · rfl
    · exact ((reserved_iff c).mpr ha).imp_right .inl

theorem validateTokens_eq (l : ListKind) (cs : List Byte) :
    validateTokens s.consts l (tokensOf cs) = raising (firstOf (cs.map (codeFault s (barred l)))) () := by
  induction cs with
  | nil => rfl
  | cons c cs ih =>
    rw [tokensOf, List.map_cons, validateTokens, validateToken_eq, ← tokensOf, ih, List.map_cons, firstOf_cons]
    cases codeFault s (barred l) c <;> rfl

theorem validateAction_eq (a : Action) : validateAction s a = raising (firstOf (listFaults s a)) () := by
  rw [validateAction, validateTokens_eq, validateTokens_eq, validateTokens_eq, andThen_raising, andThen_raising,
    ← firstOf_append, ← firstOf_append, ← List.append_assoc]
  rfl

theorem validateAll_eq : validateAll s = raising (firstOf (allActions.flatMap (listFaults s))) () := by
  rw [validateAll, validateAction_eq, validateAction_eq, validateAction_eq, andThen_raising, andThen_raising,
    ← firstOf_append, ← firstOf_append]
  simp [allActions]

/-- A list whose tokens are all let through has no code without a token. -/
theorem assigned_of_codeFault {bar : List Byte} {c : Byte} (h : codeFault s bar c = none) :
    Assigned c ∧ c ∉ bar := by
  unfold codeFault at h
  split at h
  · cases h
  · next hor =>
    refine ⟨not_not.mp fun hc => hor (((reserved_iff c).mpr hc).imp_right .inl), fun hbar => hor (.inr (.inr hbar))⟩

end
/-! ### The token scan (R410) -/

/-- The tokens behind the first `len#`. -/
def behindLen (before : List Byte) : List Byte := (before.dropWhile (· ≠ lenCode)).tail

/-- A marker stands among the tokens. -/
abbrev Seen (before : List Byte) : Prop := ∃ b ∈ before, ¬ IsConst b

/-- The scan's variables behind the tokens `before`. -/
def scanOf (s : State) (cov before : List Byte) : Scan where
  start := startOf s before
  endConst := if lenCode ∈ before then [] else endOf s before
  suffix := ((behindLen before).filter (· ∉ cov)).map suffixAs
  seen := Seen before
  lenDriven := lenCode ∈ before
  lenOffset := if lenCode ∈ before then (startOf s before).length else 0
  dataUsed := dataCode ∈ before
  crcUsed := crcCode ∈ before
  inSuffix := ∃ b ∈ behindLen before, b ∉ cov

section
variable {s : State} {cov before : List Byte} {c : Byte}

theorem dropWhile_concat {p : Byte → Bool} :
    (before ++ [c]).dropWhile p = if (∀ b ∈ before, p b) then [c].dropWhile p else before.dropWhile p ++ [c] := by
  split
  · next h => exact List.dropWhile_append_of_pos h
  · next h =>
    rw [List.dropWhile_append, if_neg]
    simpa using h

theorem behindLen_concat :
    behindLen (before ++ [c]) = if lenCode ∈ before then behindLen before ++ [c] else [] := by
  unfold behindLen
  rw [dropWhile_concat]
  by_cases h : lenCode ∈ before
  · have hne : before.dropWhile (· ≠ lenCode) ≠ [] := by simpa using h
    rw [if_neg (by simpa using h), if_pos h, List.tail_append_of_ne_nil hne]
  · rw [if_pos (fun b hb => decide_eq_true (ne_of_mem_of_not_mem hb h)), if_neg h]
    rw [List.dropWhile_cons]
    split <;> rfl

theorem behindLen_eq_nil (h : lenCode ∉ before) : behindLen before = [] := by
  rw [behindLen, List.dropWhile_eq_nil_iff.mpr fun b hb => decide_eq_true (ne_of_mem_of_not_mem hb h)]
  rfl

theorem seen_of_mem (hc : ¬ IsConst c) (h : c ∈ before) : Seen before := ⟨c, h, hc⟩

theorem isConst_of_not_seen (h : ¬ Seen before) : ∀ b ∈ before, decide (IsConst b) = true := by
  simpa [Seen] using h

theorem takeWhile_concat {p : Byte → Bool} :
    (before ++ [c]).takeWhile p = if (∀ b ∈ before, p b) then before ++ [c].takeWhile p else before.takeWhile p := by
  split
  · next h => exact List.takeWhile_append_of_pos h
  · next h =>
    rw [List.takeWhile_append, if_neg]
    exact fun hl => h (List.takeWhile_eq_self_iff.mp ((List.takeWhile_prefix p).eq_of_length hl))

/-- The start constant is complete once a marker is seen. -/
theorem startOf_concat_of_seen (h : Seen before) : startOf s (before ++ [c]) = startOf s before := by
  rw [startOf, takeWhile_concat, if_neg (by simpa [Seen] using h)]
  rfl

theorem startOf_concat_marker (hc : ¬ IsConst c) : startOf s (before ++ [c]) = startOf s before := by
  by_cases h : Seen before
  · exact startOf_concat_of_seen h
  · have hall := isConst_of_not_seen h
    rw [startOf, takeWhile_concat, if_pos hall, List.takeWhile_cons_of_neg (by simpa using hc), startOf,
      List.takeWhile_eq_self_iff.mpr hall, List.append_nil]

theorem startOf_concat_const (h : ¬ Seen before) (hc : IsConst c) :
    startOf s (before ++ [c]) = startOf s before ++ s.constBytes (tokenSlot c) := by
  have hall := isConst_of_not_seen h
  rw [startOf, takeWhile_concat, if_pos hall, List.takeWhile_cons_of_pos (by simpa using hc), startOf,
    List.takeWhile_eq_self_iff.mpr hall]
  simp

theorem endOf_concat_marker (hc : ¬ IsConst c) : endOf s (before ++ [c]) = endOf s before := by
  rw [endOf, dropWhile_concat, endOf]
  split
  · next h => rw [List.dropWhile_eq_nil_iff.mpr h]; simp [hc]
  · simp [hc]

theorem endOf_eq_nil (h : ¬ Seen before) : endOf s before = [] := by
  rw [endOf, List.dropWhile_eq_nil_iff.mpr (isConst_of_not_seen h)]
  rfl

theorem endOf_concat_const (h : Seen before) (hc : IsConst c) :
    endOf s (before ++ [c]) = endOf s before ++ s.constBytes (tokenSlot c) := by
  rw [endOf, dropWhile_concat, if_neg (by simpa [Seen] using h), endOf]
  simp [hc]

theorem seen_concat_marker (hc : ¬ IsConst c) : Seen (before ++ [c]) := seen_of_mem hc (by simp)

theorem seen_concat_const (hc : IsConst c) : Seen (before ++ [c]) ↔ Seen before := by simp [Seen, hc]

theorem step_len : (scanOf s cov before).onLen =
    raising (orderFault cov before lenCode) (scanOf s cov (before ++ [lenCode])) := by
  rw [Scan.onLen, orderFault, if_pos rfl, failing]
  by_cases h : Seen before
  · rw [if_pos (by simpa [scanOf] using h), if_pos h]
    rfl
  · have hlen : lenCode ∉ before := mt (seen_of_mem not_isConst_len) h
    have hdata : dataCode ≠ lenCode := by decide
    have hcrc : crcCode ≠ lenCode := by decide
    rw [if_neg (by simpa [scanOf] using h), if_neg h]
    simp [scanOf, hlen, hdata, hcrc, endOf_eq_nil h, behindLen_concat, behindLen_eq_nil hlen,
      startOf_concat_marker not_isConst_len, seen_concat_marker not_isConst_len]


/-- A token behind a `len#` is covered, or it joins the suffix. -/
def Scan.behind (cov : List Byte) (c : Byte) (x : Scan) : Scan :=
  if c ∈ cov then x else { x with suffix := x.suffix ++ [suffixAs c], inSuffix := true }

theorem scanOf_concat_marker (hc : ¬ IsConst c) (hne : c ≠ lenCode) :
    scanOf s cov (before ++ [c]) =
      (let x := { scanOf s cov before with
          seen := true
          dataUsed := (scanOf s cov before).dataUsed || c = dataCode
          crcUsed := (scanOf s cov before).crcUsed || c = crcCode }
       if lenCode ∈ before then Scan.behind cov c x else x) := by
  by_cases hdriven : lenCode ∈ before
  · by_cases hcov : c ∈ cov <;>
      simp [scanOf, Scan.behind, hdriven, hcov, behindLen_concat, startOf_concat_marker hc, seen_concat_marker hc,
        eq_comm (a := c)]
  · simp [scanOf, hdriven, behindLen_concat, behindLen_eq_nil hdriven, startOf_concat_marker hc, seen_concat_marker hc,
      endOf_concat_marker hc, hne.symm, eq_comm (a := c)]

theorem scanOf_concat_const (hc : IsConst c) :
    scanOf s cov (before ++ [c]) =
      if lenCode ∈ before then Scan.behind cov c (scanOf s cov before)
      else if Seen before then
        { scanOf s cov before with endConst := endOf s before ++ s.constBytes (tokenSlot c) }
      else { scanOf s cov before with start := startOf s before ++ s.constBytes (tokenSlot c) } := by
  obtain ⟨hlen, hdata, hcrc⟩ := ne_marker hc
  by_cases hdriven : lenCode ∈ before
  · have hseen : Seen before := seen_of_mem not_isConst_len hdriven
    by_cases hcov : c ∈ cov <;>
      simp [scanOf, Scan.behind, hdriven, hcov, behindLen_concat, startOf_concat_of_seen hseen, seen_concat_const hc,
        hseen, hdata.symm, hcrc.symm]
  · by_cases hseen : Seen before
    · simp [scanOf, hdriven, behindLen_concat, behindLen_eq_nil hdriven, startOf_concat_of_seen hseen,
        seen_concat_const hc, hseen, endOf_concat_const hseen hc, hlen.symm, hdata.symm, hcrc.symm]
    · have hend : endOf s (before ++ [c]) = [] := endOf_eq_nil (mt (seen_concat_const hc).mp hseen)
      simp [scanOf, hdriven, behindLen_concat, behindLen_eq_nil hdriven, startOf_concat_const hseen hc,
        seen_concat_const hc, hseen, endOf_eq_nil hseen, hend, hlen.symm, hdata.symm, hcrc.symm]

/-- What the tokens behind `len#` are refused for. -/
theorem orderFault_driven (hne : c ≠ lenCode) (hdup : ¬ (¬ IsConst c ∧ c ∈ before)) (h : lenCode ∈ before) :
    orderFault cov before c =
      if c ∈ cov then failing (∃ b ∈ behindLen before, b ∉ cov) .cfgCoverOrder
      else failing (c = dataCode) .cfgSuffixData := by
  rw [orderFault, if_neg hne, if_neg hdup, if_pos h]
  rfl

theorem orderFault_free (hne : c ≠ lenCode) (hdup : ¬ (¬ IsConst c ∧ c ∈ before)) (h : lenCode ∉ before) :
    orderFault cov before c = none := by
  rw [orderFault, if_neg hne, if_neg hdup, if_neg h]

theorem orderFault_dup (hne : c ≠ lenCode) (hdup : ¬ IsConst c ∧ c ∈ before) :
    orderFault cov before c = some .cfgDupMarker := by
  rw [orderFault, if_neg hne, if_pos hdup]

/-- A `data#` or `crc#` marks its variable and, behind a `len#`, is covered or joins the suffix. -/
theorem step_marker {x : Scan} (hdriven : x.lenDriven = decide (lenCode ∈ before))
    (hsuf : x.inSuffix = decide (∃ b ∈ behindLen before, b ∉ cov)) (hne : c ≠ lenCode)
    (hdup : ¬ (¬ IsConst c ∧ c ∈ before)) {y : Except Status Scan}
    (hy : c ∉ cov → y = if c = dataCode then .error .cfgSuffixData else x.addSuffix (suffixAs c)) :
    (if x.lenDriven then (if c ∈ cov then x.covered else y) else .ok x) =
      raising (orderFault cov before c) (if lenCode ∈ before then Scan.behind cov c x else x) := by
  by_cases h : lenCode ∈ before
  · rw [hdriven, if_pos (decide_eq_true h), if_pos h, orderFault_driven hne hdup h]
    by_cases hcov : c ∈ cov
    · rw [if_pos hcov, if_pos hcov, Scan.covered, hsuf, failing, Scan.behind, if_pos hcov]
      by_cases hlate : ∃ b ∈ behindLen before, b ∉ cov
      · rw [if_pos hlate, if_pos (decide_eq_true hlate)]
        rfl
      · rw [if_neg hlate, if_neg (by simpa using hlate)]
        rfl
    · rw [if_neg hcov, if_neg hcov, failing, Scan.behind, if_neg hcov, hy hcov]
      split <;> rfl
  · rw [hdriven, if_neg (by simpa using h), if_neg h, orderFault_free hne hdup h]
    rfl

theorem step_data : (scanOf s cov before).onData cov =
    raising (orderFault cov before dataCode) (scanOf s cov (before ++ [dataCode])) := by
  have hlen : dataCode ≠ lenCode := by decide
  have hcrc : dataCode ≠ crcCode := by decide
  rw [Scan.onData]
  by_cases hdup : dataCode ∈ before
  · rw [orderFault_dup hlen ⟨not_isConst_data, hdup⟩, if_pos (by simpa [scanOf])]
    rfl
  · rw [if_neg (by simpa [scanOf] using hdup), scanOf_concat_marker not_isConst_data hlen]
    simp only [hcrc, decide_true, decide_false, Bool.or_true, Bool.or_false]
    exact step_marker (x := { scanOf s cov before with seen := true, dataUsed := true }) rfl rfl hlen
      (fun h => hdup h.2) fun _ => (if_pos rfl).symm

theorem step_crc : (scanOf s cov before).onCrc cov =
    raising (orderFault cov before crcCode) (scanOf s cov (before ++ [crcCode])) := by
  have hlen : crcCode ≠ lenCode := by decide
  have hdata : crcCode ≠ dataCode := by decide
  rw [Scan.onCrc]
  by_cases hdup : crcCode ∈ before
  · rw [orderFault_dup hlen ⟨not_isConst_crc, hdup⟩, if_pos (by simpa [scanOf])]
    rfl
  · rw [if_neg (by simpa [scanOf] using hdup), scanOf_concat_marker not_isConst_crc hlen]
    simp only [hdata, decide_true, decide_false, Bool.or_true, Bool.or_false]
    exact step_marker (x := { scanOf s cov before with seen := true, crcUsed := true }) rfl rfl hlen
      (fun h => hdup h.2) fun _ => (if_neg hdata).symm

theorem step_const (hc : IsConst c) : (scanOf s cov before).onConst cov (tokenSlot c) (s.constBytes (tokenSlot c)) =
    raising (orderFault cov before c) (scanOf s cov (before ++ [c])) := by
  obtain ⟨hlen, hdata, hcrc⟩ := ne_marker hc
  have hdup : ¬ (¬ IsConst c ∧ c ∈ before) := fun h => h.1 hc
  have hsuffix : suffixAs c = .const (tokenSlot c) := by rw [suffixAs, if_neg hdata, if_neg hcrc]
  rw [Scan.onConst, scanOf_concat_const hc, tokenCode_tokenSlot hc]
  by_cases hseen : Seen before
  · have hscan : (scanOf s cov before).seen = true := decide_eq_true hseen
    rw [if_neg (by rw [hscan]; decide)]
    by_cases hdriven : lenCode ∈ before
    · have hstep := step_marker (x := scanOf s cov before) rfl rfl hlen hdup fun _ => (if_neg hdata).symm
      rw [hsuffix, if_pos (show (scanOf s cov before).lenDriven = true from decide_eq_true hdriven)] at hstep
      rw [if_pos (show (scanOf s cov before).lenDriven = true from decide_eq_true hdriven), hstep, if_pos hdriven,
        if_pos hdriven]
    · rw [orderFault_free hlen hdup hdriven, if_neg hdriven, if_pos hseen]
      simp [scanOf, hdriven]
  · have hdriven : lenCode ∉ before := mt (seen_of_mem not_isConst_len) hseen
    rw [orderFault_free hlen hdup hdriven, if_neg hdriven, if_neg hseen]
    simp [scanOf, hseen]

/-- A step of the scan records its token among those it has passed, or raises what the token is refused for. -/
theorem scan_step (hc : Assigned c) : (scanOf s cov before).step s.consts cov (tokenOf c) =
    raising (orderFault cov before c) (scanOf s cov (before ++ [c])) := by
  obtain rfl | rfl | rfl | hconst := hc
  · exact step_len
  · exact step_data
  · exact step_crc
  · rw [tokenOf_const hconst]
    exact step_const hconst

end

/-- What the tokens are refused for, one after the other, behind the tokens `before`. -/
def faultsFrom (cov : List Byte) : List Byte → List Byte → List (Option Status)
  | _, [] => []
  | before, c :: rest => orderFault cov before c :: faultsFrom cov (before ++ [c]) rest

theorem faultsFrom_append (cov before l m : List Byte) :
    faultsFrom cov before (l ++ m) = faultsFrom cov before l ++ faultsFrom cov (before ++ l) m := by
  induction l generalizing before with
  | nil => simp [faultsFrom]
  | cons c l ih => simp [faultsFrom, ih]

theorem faultsFrom_eq_map (cov before rest : List Byte) : faultsFrom cov before rest =
    (List.range rest.length).map fun n => orderFault cov (before ++ rest.take n) (rest.getD n 0) := by
  induction rest generalizing before with
  | nil => rfl
  | cons c rest ih => simp [faultsFrom, ih, List.range_succ_eq_map, Function.comp_def]

theorem scanTokens_eq (s : State) (cov : List Byte) {rest : List Byte} (h : ∀ c ∈ rest, Assigned c)
    (before : List Byte) : scanTokens s.consts cov (tokensOf rest) (scanOf s cov before) =
      raising (firstOf (faultsFrom cov before rest)) (scanOf s cov (before ++ rest)) := by
  induction rest generalizing before with
  | nil => simp [tokensOf, scanTokens, faultsFrom]
  | cons c rest ih =>
    obtain ⟨hc, hrest⟩ := List.forall_mem_cons.mp h
    rw [tokensOf, List.map_cons, scanTokens, scan_step hc, ← tokensOf, faultsFrom, firstOf_cons]
    cases orderFault cov before c with
    | none => simpa using ih hrest (before ++ [c])
    | some e => rfl

/-! ### COMPILE of an action's format (R400, R410) -/

section
variable (s : State)

theorem formatFaults_eq (a : Action) (h : s.fmt.get a ≠ []) : formatFaults s a =
    faultsFrom (s.lenList.get a) [] (s.fmt.get a) ++
      [failing (startOf s (s.fmt.get a) = []) .cfgNoStart,
       failing (lenCode ∉ s.fmt.get a ∧ endOf s (s.fmt.get a) = []) .cfgAmbiguousEnd] := by
  rw [formatFaults, faultsFrom_eq_map]
  exact if_neg h

theorem compileAction_eq (a : Action) (h : ∀ c ∈ s.fmt.get a, Assigned c) :
    compileAction s a = raising (firstOf (formatFaults s a)) (templateOf s a) := by
  by_cases hfmt : s.fmt.get a = []
  · simp [compileAction, formatFaults, templateOf, hfmt]
  have hinit : scanOf s (s.lenList.get a) [] = .init := by simp [scanOf, startOf, endOf, behindLen, Scan.init]
  rw [compileAction, if_neg hfmt, compile, ← hinit, scanTokens_eq s _ h, formatFaults_eq s a hfmt, firstOf_append,
    List.nil_append]
  cases firstOf (faultsFrom (s.lenList.get a) [] (s.fmt.get a)) with
  | some e => rfl
  | none =>
    simp only [raising_none, Option.none_or, Scan.template, firstOf_cons, failing, scanOf, templateOf, behindLen]
    by_cases hstart : startOf s (s.fmt.get a) = []
    · simp [hstart]
    · by_cases hlen : lenCode ∈ s.fmt.get a
      · simp [hstart, hlen, hfmt]
      · by_cases hend : endOf s (s.fmt.get a) = []
        · simp [hstart, hlen, hend]
        · simp [hstart, hlen, hend, hfmt]

theorem compileAll_eq (h : ∀ a, ∀ c ∈ s.fmt.get a, Assigned c) :
    compileAll s = raising (firstOf (allActions.flatMap (formatFaults s)))
      ⟨templateOf s .r, templateOf s .w, templateOf s .e⟩ := by
  rw [compileAll, compileAction_eq s .r (h .r), compileAction_eq s .w (h .w), compileAction_eq s .e (h .e)]
  simp only [allActions, List.flatMap_cons, List.flatMap_nil, List.append_nil, firstOf_append]
  cases firstOf (formatFaults s .r) with
  | some e => rfl
  | none =>
    cases firstOf (formatFaults s .w) with
    | some e => rfl
    | none => cases firstOf (formatFaults s .e) <;> rfl

/-! ### VALIDATE_GLOBAL (R420 steps 2 to 6) -/

theorem getLsbD_escOnly (e b : Byte) : (escOnly e).getLsbD b.toNat = decide (b = e) := by
  have hb := b.isLt
  rw [escOnly, BitVec.getLsbD_shiftLeft, BitVec.getLsbD_one]
  simp only [← BitVec.toNat_inj]
  grind

theorem eq_escOnly_iff (p : BitVec 256) (e : Byte) :
    p = escOnly e ↔ ∀ b : Byte, p.getLsbD b.toNat = decide (b = e) := by
  constructor
  · rintro rfl
    exact getLsbD_escOnly e
  · intro h
    refine BitVec.eq_of_getLsbD_eq fun n hn => ?_
    have hn : (BitVec.ofNat 8 n).toNat = n := by simpa using hn
    rw [← hn, h, getLsbD_escOnly]

theorem staffAdmitted_iff : staffAdmitted s = false ↔ BadStaffing s := by
  rw [staffAdmitted, State.rule, BadStaffing]
  by_cases hen : s.staffEn = true
  · simp only [hen, if_true, StaffRule.admitted, StaffRule.has, Bool.or_eq_false_iff, Bool.not_eq_false',
      decide_eq_false_iff_not, true_and, eq_escOnly_iff]
    refine and_congr_right fun hesc => ?_
    push Not
    refine exists_congr fun b => ?_
    by_cases hb : b = s.esc
    · simp [hb, hesc]
    · simp [hb]
  · simp [hen]

theorem lenUsed_iff : lenUsed s = true ↔
    ∃ a ∈ allActions, lenCode ∈ s.fmt.get a ∨ lenCode ∈ s.crcList.get a ∨ s.lenList.get a ≠ [] := by
  simp [lenUsed, or_assoc]

theorem widthLegal_iff (w : Nat) : widthLegal w = true ↔ w ∈ [1, 2, 4, 8] := by simp [widthLegal, or_assoc]

theorem isSome_templateOf (a : Action) : (templateOf s a).isSome = true ↔ s.fmt.get a ≠ [] := by
  unfold templateOf
  dsimp only
  split <;> simp_all

theorem anyTemplate_iff : anyTemplate ⟨templateOf s .r, templateOf s .w, templateOf s .e⟩ = true ↔
    ∃ a ∈ allActions, s.fmt.get a ≠ [] := by
  simp [anyTemplate, allActions, PerAction.get, isSome_templateOf]

theorem circular_iff : circular s = true ↔
    (∃ a ∈ allActions, crcCode ∈ s.lenList.get a ∧ lenCode ∈ s.crcList.get a) ∧ s.lenCountsWire = true ∧
      s.crcStaffed = true ∧ s.staffEn = true := by
  simp only [circular, Bool.and_eq_true, List.any_eq_true, decide_eq_true_eq]
  tauto

theorem raising_failing_or (p : Prop) [Decidable p] (c : Status) (f : Option Status) :
    raising ((failing p c).or f) () = if p then .error c else raising f () := by
  unfold failing
  split <;> rfl

theorem validateGlobal_eq :
    validateGlobal s ⟨templateOf s .r, templateOf s .w, templateOf s .e⟩ = raising (firstOf (globalFaults s)) () := by
  simp only [globalFaults, firstOf_cons, firstOf_nil, raising_failing_or, raising_none]
  simp only [validateGlobal, Bool.and_eq_true, Bool.not_eq_true', decide_eq_true_eq, lenUsed_iff, anyTemplate_iff,
    staffAdmitted_iff, circular_iff, ← widthLegal_iff, Bool.not_eq_true]

/-! ### COMMIT (R400, R430) -/

theorem listFaults_none_iff {a : Action} : firstOf (listFaults s a) = none ↔
    (∀ c ∈ s.fmt.get a, codeFault s [] c = none) ∧ (∀ c ∈ s.lenList.get a, codeFault s [lenCode] c = none) ∧
      (∀ c ∈ s.crcList.get a, codeFault s [crcCode] c = none) := by
  simp [firstOf_eq_none_iff, listFaults, or_imp, forall_and]

/-- COMMIT compiles the templates of the formats, or raises the first error of the configuration. -/
theorem compiled_eq : compiled s =
    raising (commitFault s) ⟨templateOf s .r, templateOf s .w, templateOf s .e⟩ := by
  rw [compiled, validateAll_eq, commitFault, firstOf_append, firstOf_append]
  cases hlists : firstOf (allActions.flatMap (listFaults s)) with
  | some e => rfl
  | none =>
    have hassigned (a : Action) : ∀ c ∈ s.fmt.get a, Assigned c := by
      have hall : firstOf (listFaults s a) = none := by
        rw [firstOf_eq_none_iff] at hlists ⊢
        exact fun x hx => hlists x (List.mem_flatMap.mpr ⟨a, by cases a <;> simp [allActions], hx⟩)
      exact fun c hc => (assigned_of_codeFault s (((listFaults_none_iff s).mp hall).1 c hc)).1
    simp only [raising_none, Option.none_or, compileAll_eq s hassigned]
    cases firstOf (allActions.flatMap (formatFaults s)) with
    | some e => rfl
    | none =>
      simp only [raising_none, Option.none_or, validateGlobal_eq]
      cases firstOf (globalFaults s) <;> rfl

end

end Sys2Proof.Proofs.Compiler
end

section
/-! PROOFS. COMMIT (spec/42_template.md R400, R410, R420, R430; spec/46_control.md R811). It raises `commitFault` or locks
with the templates `templateOf`, by `compiled_eq`; the statements about single configurations compute the two. -/

namespace Sys2Proof.Proofs.Commit

open Sys2Proof.Machine Sys2Proof.Proofs.Exceptions Sys2Proof.Proofs.Commands Sys2Proof.Proofs.Invariants
  Sys2Proof.Proofs.Compiler

/-! ### The errors are fatal (R901) -/

theorem fatal_of_failing {p : Prop} [Decidable p] {c d : Status} (hc : c.fatal = true) (h : failing p c = some d) :
    d.fatal = true := by
  unfold failing at h
  split at h <;> cases h
  exact hc

theorem fatal_of_codeFault {s : State} {bar : List Byte} {b : Byte} {c : Status} (h : codeFault s bar b = some c) :
    c.fatal = true := by
  unfold codeFault at h
  split at h
  · cases h
    rfl
  · exact fatal_of_failing rfl h

theorem fatal_of_orderFault {cov before : List Byte} {b : Byte} {c : Status} (h : orderFault cov before b = some c) :
    c.fatal = true := by
  unfold orderFault at h
  split_ifs at h
  · exact fatal_of_failing rfl h
  · cases h
    rfl
  · exact fatal_of_failing rfl h
  · exact fatal_of_failing rfl h

theorem commitFault_fatal {s : State} {c : Status} (h : commitFault s = some c) : c.fatal = true := by
  have hmem := mem_of_firstOf h
  rw [List.mem_append, List.mem_append, List.mem_flatMap, List.mem_flatMap] at hmem
  obtain (⟨a, -, hlist⟩ | ⟨a, -, hformat⟩) | hglobal := hmem
  · simp only [listFaults, List.mem_append, List.mem_map] at hlist
    obtain (⟨b, -, hb⟩ | ⟨b, -, hb⟩) | ⟨b, -, hb⟩ := hlist <;> exact fatal_of_codeFault hb
  · by_cases hfmt : s.fmt.get a = []
    · simp [formatFaults, hfmt] at hformat
    · simp only [formatFaults, if_neg hfmt, List.mem_append, List.mem_map, List.mem_cons, List.not_mem_nil,
        or_false] at hformat
      obtain ⟨n, -, hn⟩ | hstart | hend := hformat
      · exact fatal_of_orderFault hn
      · exact fatal_of_failing rfl hstart.symm
      · exact fatal_of_failing rfl hend.symm
  · simp only [globalFaults, List.mem_cons, List.not_mem_nil, or_false] at hglobal
    obtain h | h | h | h | h := hglobal <;> exact fatal_of_failing rfl h.symm

/-! ### The command (R400, R902) -/

section
variable {s : State} (hf : s.faulted = false) (hc : s.committed = false)
include hf hc

theorem exec_commit_of_fault {c : Status} (h : commitFault s = some c) : exec .commit s = .next (s.raise c) :=
  exec_of_write_error hf hc (by rw [writeOf, compiled_eq, h]; rfl)

theorem exec_commit_of_ok (h : commitFault s = none) : exec .commit s =
    .next (((Write.lock ⟨templateOf s .r, templateOf s .w, templateOf s .e⟩).apply s).finish {}) :=
  exec_of_write_ok hf hc (by rw [writeOf, compiled_eq, h]; rfl)

/-- COMMIT refuses a configuration with an error, and its end is precise. -/
theorem commit_refuses {c : Status} (h : commitFault s = some c) :
    ∃ t, exec .commit s = .next t ∧ t.faulted = true ∧ t.fcode = c.code ∧ t.committed = false ∧
      t = { s with ctrl := t.ctrl, result := { status := c }, pending := s.pending.tail } := by
  obtain ⟨hfaulted, hfcode, hcommitted⟩ := raise_fields_of_fatal s (commitFault_fatal h)
  exact ⟨_, exec_commit_of_fault hf hc h, hfaulted, hfcode, hcommitted.trans hc, raise_eq s c⟩

/-- COMMIT locks a configuration without error. -/
theorem commit_locks (h : commitFault s = none) :
    ∃ t, exec .commit s = .next t ∧ t.committed = true ∧ t.faulted = false ∧ t.fcode = s.fcode ∧
      t = { s with
        template := ⟨templateOf s .r, templateOf s .w, templateOf s .e⟩,
        ctrl := t.ctrl, result := {}, pending := s.pending.tail } :=
  ⟨_, exec_commit_of_ok hf hc h, ctrlWord_committed _ _ _, (ctrlWord_faulted _ _ _).trans hf, ctrlWord_fcode _ _ _, rfl⟩

end

/-! ### The host's loading of it (R811, R952) -/

theorem run_succ_of {M : Host.Core} {s t : M.State} (k : Nat) (h : M.step s = .next t) :
    M.run (k + 1) s = M.run k t := by
  rw [Host.Core.run, h]

theorem run_succ {s t : State} (k : Nat) (h : step s = .next t) :
    Sys2Proof.core.run (k + 1) s = Sys2Proof.core.run k t :=
  run_succ_of (M := Sys2Proof.core) k h

/-- The host's turn. -/
theorem step_host {s : State} (h : s.pending = []) : step s = .next s.hostStep := by
  rw [step, h]

/-- The turn of a command issued alone. -/
theorem step_command {s : State} {i : Instr} {o : Operands} (h : s.pending = [{ word := encode i, operands := o }]) :
    step s = exec i s :=
  Encoding.step_of_decode_ok h (Words.decode_encode i)

section
variable {s : State}

/-- The host issues COMMIT, the last command of its loading. -/
theorem boot_issues (hp : s.pending = []) (hphase : s.loop.phase = .boot [{ word := encode .commit }]) :
    step s = .next (withHost s s.result [{ word := encode .commit }] { s.loop with phase := .awaitBoot [] }) := by
  rw [step_host hp, State.hostStep, hphase]
  rfl

theorem boot_refused {c : Status} (hf : s.faulted = false) (hc : s.committed = false)
    (hp : s.pending = []) (hphase : s.loop.phase = .boot [{ word := encode .commit }]) (h : commitFault s = some c) :
    ∃ t, Sys2Proof.core.run 6 s = .next t ∧ t.faulted = true ∧ t.fcode = c.code ∧ t.committed = false ∧
      t = { s with
        ctrl := t.ctrl, result := { stat := some t.statusWord },
        loop := { s.loop with phase := .stopped (.badConfig c.code) } } := by
  have hfatal := commitFault_fatal h
  let s₁ := withHost s s.result [{ word := encode .commit }] { s.loop with phase := .awaitBoot [] }
  have h₁ : step s = .next s₁ := boot_issues hp hphase
  have h₂ : step s₁ = .next (s₁.raise c) := (step_command rfl).trans (exec_commit_of_fault (s := s₁) hf hc h)
  let s₂ : State := { s₁ with ctrl := (s₁.raise c).ctrl, result := { status := c }, pending := [] }
  have hraise : s₁.raise c = s₂ := raise_eq s₁ c
  have h₃ : step s₂ = .next { s₂ with loop := { s₂.loop with phase := .refused } } := by
    rw [step_host rfl]
    show Host.Outcome.next { s₂ with loop := s₂.loop.onBoot [] s₂.result } = _
    rw [ReadLoop.onBoot, if_pos (show s₂.result.status.fatal = true from hfatal)]
  let s₃ : State := { s₂ with loop := { s₂.loop with phase := .refused } }
  have h₄ : step s₃ = .next s₃.codeIssue := rfl
  have h₅ : step s₃.codeIssue = .next (s₃.codeIssue.ended { stat := some s₃.statusWord }) :=
    (step_command rfl).trans (Control.exec_status _)
  obtain ⟨hfaulted, hfcode, hcommitted⟩ := raise_fields_of_fatal s₁ hfatal
  rw [hraise] at hfaulted hfcode hcommitted h₂
  have hcode : s₃.statusWord.extractLsb' 0 8 = c.code := (ctrlWord_fcode _ _ _).trans hfcode
  have h₆ : step (s₃.codeIssue.ended { stat := some s₃.statusWord }) =
      .next { s₂ with
        result := { stat := some s₃.statusWord }, pending := s.pending,
        loop := { s.loop with phase := .stopped (.badConfig c.code) } } := by
    rw [step_host rfl, ← hcode, hp]
    rfl
  exact ⟨_, (run_succ 5 h₁).trans <| (run_succ 4 h₂).trans <| (run_succ 3 h₃).trans <| (run_succ 2 h₄).trans <|
    (run_succ 1 h₅).trans <| (run_succ 0 h₆), hfaulted, hfcode, hcommitted.trans hc, rfl⟩

theorem boot_done (hf : s.faulted = false) (hc : s.committed = false)
    (hp : s.pending = []) (hphase : s.loop.phase = .boot [{ word := encode .commit }]) (h : commitFault s = none) :
    ∃ t, Sys2Proof.core.run 4 s = .next t ∧ t.committed = true ∧ t.faulted = false ∧ t.fcode = s.fcode ∧
      t = { s with
        template := ⟨templateOf s .r, templateOf s .w, templateOf s .e⟩,
        ctrl := t.ctrl, result := {}, loop := { s.loop with phase := .idle } } := by
  let s₁ := withHost s s.result [{ word := encode .commit }] { s.loop with phase := .awaitBoot [] }
  have h₁ : step s = .next s₁ := boot_issues hp hphase
  let s₂ := ((Write.lock ⟨templateOf s .r, templateOf s .w, templateOf s .e⟩).apply s₁).finish {}
  have h₂ : step s₁ = .next s₂ := (step_command rfl).trans (exec_commit_of_ok (s := s₁) hf hc h)
  have h₃ : step s₂ = .next { s₂ with loop := { s₂.loop with phase := .boot [] } } := rfl
  have h₄ : step { s₂ with loop := { s₂.loop with phase := .boot [] } } =
      .next { s₂ with pending := s.pending, loop := { s.loop with phase := .idle } } := by
    rw [step_host rfl, hp]
    rfl
  exact ⟨_, (run_succ 3 h₁).trans <| (run_succ 2 h₂).trans <| (run_succ 1 h₃).trans <| (run_succ 0 h₄),
    ctrlWord_committed _ _ _, (ctrlWord_faulted _ _ _).trans hf, ctrlWord_fcode _ _ _, rfl⟩

end

end Sys2Proof.Proofs.Commit
end

section
/-! PROOFS. The obligations about COMMIT (spec/42_template.md R400, R410, R420, R430): the first errors and the templates of
single configurations, computed from `commitFault` and `templateOf`. -/

namespace Sys2Proof.Proofs.Configurations

open Sys2Proof.Machine Sys2Proof.Proofs.Compiler Sys2Proof.Proofs.Commit

/-! ### The lists of a configuration (R420 step 1) -/

section
variable {s : State} {cov before : List Byte} {c : Byte}

theorem commitFault_eq_none_iff : commitFault s = none ↔
    (∀ a, firstOf (listFaults s a) = none) ∧ (∀ a, firstOf (formatFaults s a) = none) ∧
      firstOf (globalFaults s) = none := by
  have hall (a : Action) : a ∈ allActions := by cases a <;> simp [allActions]
  simp only [commitFault, firstOf_eq_none_iff, List.mem_append, List.mem_flatMap, or_imp, forall_and]
  constructor
  · rintro ⟨⟨hlists, hformats⟩, hglobal⟩
    exact ⟨fun a x hx => hlists x ⟨a, hall a, hx⟩, fun a x hx => hformats x ⟨a, hall a, hx⟩, hglobal⟩
  · rintro ⟨hlists, hformats, hglobal⟩
    exact ⟨⟨fun x ⟨a, _, hx⟩ => hlists a x hx, fun x ⟨a, _, hx⟩ => hformats a x hx⟩, hglobal⟩

/-- A marker is let through by a list that admits it. -/
theorem codeFault_marker {bar : List Byte} (h : c = lenCode ∨ c = dataCode ∨ c = crcCode) (hbar : c ∉ bar) :
    codeFault s bar c = none := by
  have hnot : ¬ IsConst c := by rintro hc; obtain rfl | rfl | rfl := h <;> revert hc <;> decide
  rw [codeFault_of_assigned s (by tauto) hbar, failing_eq_none_iff]
  exact fun h => hnot h.1

/-- A declared constant is let through by every list. -/
theorem codeFault_const {k : Fin Config.constSlots} (h : s.consts[k].valid = true) :
    codeFault s [] (tokenCode (.const k)) = none := by
  rw [codeFault_of_assigned s (.inr (.inr (.inr (isConst_tokenCode k)))) List.not_mem_nil, failing_eq_none_iff]
  simp only [tokenSlot_tokenCode]
  exact fun hundeclared => Bool.noConfusion (h.symm.trans hundeclared.2)

theorem codeFault_constCodes {ks : List (Fin Config.constSlots)} (h : Declared s ks) :
    ∀ c ∈ constCodes ks, codeFault s [] c = none := by
  simpa [constCodes] using fun k hk => codeFault_const (h k hk)

/-! ### The formats of a configuration (R410) -/

/-- Each token is refused for what stands before it. -/
theorem faultsFrom_none_iff {rest : List Byte} : firstOf (faultsFrom cov before rest) = none ↔
    ∀ l c m, rest = l ++ c :: m → orderFault cov (before ++ l) c = none := by
  induction rest generalizing before with
  | nil => simp [faultsFrom]
  | cons d rest ih =>
    rw [faultsFrom, firstOf_cons, Option.or_eq_none_iff, ih]
    constructor
    · rintro ⟨hd, hrest⟩ l c m heq
      cases l with
      | nil => cases heq; simpa using hd
      | cons x l => cases heq; simpa using hrest l c m rfl
    · intro h
      exact ⟨by simpa using h [] d rest rfl, fun l c m heq => by simpa using h (d :: l) c m (by simp [heq])⟩

/-- A constant without coverage is never refused. -/
theorem orderFault_const (hc : IsConst c) (hcov : c ∉ cov) : orderFault cov before c = none := by
  obtain ⟨hlen, hdata, -⟩ := ne_marker hc
  have hdup : ¬ (¬ IsConst c ∧ c ∈ before) := fun h => h.1 hc
  by_cases h : lenCode ∈ before
  · rw [orderFault_driven hlen hdup h, if_neg hcov, failing, if_neg hdata]
  · exact orderFault_free hlen hdup h

theorem isConst_constCodes {ks : List (Fin Config.constSlots)} : ∀ c ∈ constCodes ks, IsConst c := by
  simp [constCodes]

theorem not_mem_constCodes {ks : List (Fin Config.constSlots)} (hc : ¬ IsConst c) : c ∉ constCodes ks :=
  fun h => hc (isConst_constCodes c h)

theorem faultsFrom_constCodes (hcov : ∀ c ∈ cov, ¬ IsConst c) (ks : List (Fin Config.constSlots)) :
    firstOf (faultsFrom cov before (constCodes ks)) = none := by
  rw [faultsFrom_none_iff]
  intro l c m heq
  have hc : IsConst c := isConst_constCodes (ks := ks) c (by simp [heq])
  exact orderFault_const hc fun h => hcov c h hc

/-! ### The constants of a format -/

theorem flatMap_constCodes (s : State) (ks : List (Fin Config.constSlots)) :
    ((constCodes ks).flatMap fun c => s.constBytes (tokenSlot c)) = constConcat s ks := by
  simp [constCodes, constConcat, List.flatMap_map]

/-- The constants before the first marker. -/
theorem startOf_constCodes (ks : List (Fin Config.constSlots)) {m : Byte} {rest : List Byte} (hm : ¬ IsConst m) :
    startOf s (constCodes ks ++ m :: rest) = constConcat s ks := by
  rw [startOf, List.takeWhile_append_of_pos (fun c hc => decide_eq_true (isConst_constCodes c hc)),
    List.takeWhile_cons_of_neg (by simpa using hm), List.append_nil, flatMap_constCodes]

/-- The constants behind markers that stand together. -/
theorem endOf_constCodes (ks es : List (Fin Config.constSlots)) {ms : List Byte} (hms : ∀ m ∈ ms, ¬ IsConst m)
    (hne : ms ≠ []) : endOf s (constCodes ks ++ ms ++ constCodes es) = constConcat s es := by
  obtain ⟨m, rest, rfl⟩ := List.exists_cons_of_ne_nil hne
  obtain ⟨hm, hrest⟩ := List.forall_mem_cons.mp hms
  have hconst : (constCodes es).filter (fun c => decide (IsConst c)) = constCodes es :=
    List.filter_eq_self.mpr fun c hc => decide_eq_true (isConst_constCodes c hc)
  have hmarkers : rest.filter (fun c => decide (IsConst c)) = [] :=
    List.filter_eq_nil_iff.mpr fun c hc => by simpa using hrest c hc
  rw [endOf, List.append_assoc, List.dropWhile_append_of_pos (fun c hc => decide_eq_true (isConst_constCodes c hc)),
    List.cons_append, List.dropWhile_cons_of_neg (by simpa using hm), List.filter_cons_of_neg (by simpa using hm),
    List.filter_append, hmarkers, List.nil_append, hconst, flatMap_constCodes]

end

theorem suffixAs_suffixCode (t : SuffixToken) : suffixAs (suffixCode t) = t := by
  cases t with
  | data | crc => rfl
  | const k =>
    obtain ⟨-, hdata, hcrc⟩ := ne_marker (isConst_tokenCode k)
    rw [suffixCode, suffixAs, if_neg hdata, if_neg hcrc, tokenSlot_tokenCode]

theorem suffixCode_cases {t : SuffixToken} (h : t ≠ .data) : suffixCode t = crcCode ∨ IsConst (suffixCode t) := by
  cases t with
  | data => exact absurd rfl h
  | crc => exact .inl rfl
  | const k => exact .inr (isConst_tokenCode k)

theorem count_suffixCode (suf : List SuffixToken) : (suf.map suffixCode).count crcCode = suf.count .crc :=
  List.count_map_of_injective suf suffixCode (Function.LeftInverse.injective suffixAs_suffixCode) .crc

/-! ### The registers of one action -/

theorem get_onlyFor {α : Type} (a b : Action) (l : List α) : (onlyFor a l).get b = if b = a then l else [] := by
  cases a <;> cases b <;> rfl

theorem get_empty {α : Type} (a : Action) : (⟨[], [], []⟩ : PerAction (List α)).get a = [] := by cases a <;> rfl

/-- Templates of which only action a's is there. -/
theorem perAction_eq_set {α : Type} {f : Action → Option α} {a : Action} {x : α} (ha : f a = some x)
    (h : ∀ b, b ≠ a → f b = none) : (⟨f .r, f .w, f .e⟩ : PerAction (Option α)) =
      PerAction.set ⟨none, none, none⟩ a (some x) := by
  cases a <;> simp [PerAction.set, ha, h]

/-! ### Committed configurations (R43, R93) -/

section
variable {s : State} {a : Action} {t : Template}

/-- A consistent state with a template is committed. -/
theorem committed_of_template (hs : s.Consistent) (ht : s.template.get a = some t) : s.committed = true := by
  by_contra hopen
  obtain ⟨-, -, hcommit, -⟩ := hs
  rw [State.CommitLegal, if_neg hopen] at hcommit
  rw [hcommit] at ht
  cases a <;> cases ht

/-- In a consistent state that is committed COMMIT has found no error, and the templates are the formats'. -/
theorem commitFault_of_committed (hs : s.Consistent) (hc : s.committed = true) :
    commitFault s = none ∧ ∀ a, s.template.get a = templateOf s a := by
  obtain ⟨-, -, hcommit, -⟩ := hs
  rw [State.CommitLegal, if_pos hc, State.templatesAgree, compiled_eq] at hcommit
  cases h : commitFault s with
  | some e =>
    rw [h] at hcommit
    cases hcommit
  | none =>
    rw [h] at hcommit
    have htemplate := of_decide_eq_true hcommit
    exact ⟨rfl, fun a => by rw [← htemplate]; cases a <;> rfl⟩

theorem templateOf_eq_some (ht : templateOf s a = some t) : s.fmt.get a ≠ [] ∧ t =
    { start := startOf s (s.fmt.get a)
      lenOffset := if lenCode ∈ s.fmt.get a then (startOf s (s.fmt.get a)).length else 0
      suffix := ((behindLen (s.fmt.get a)).filter (· ∉ s.lenList.get a)).map suffixAs
      endConst := if lenCode ∈ s.fmt.get a then [] else endOf s (s.fmt.get a)
      lenDriven := lenCode ∈ s.fmt.get a } := by
  have hne : s.fmt.get a ≠ [] := (isSome_templateOf s a).mp (by simp [ht])
  refine ⟨hne, ?_⟩
  rw [templateOf] at ht
  exact (Option.some.inj ((if_neg hne).symm.trans ht)).symm

/-- What COMMIT has found of a format: its tokens in order, a start constant, and an end. -/
theorem format_of_commitFault (h : commitFault s = none) (hne : s.fmt.get a ≠ []) :
    (∀ l c m, s.fmt.get a = l ++ c :: m → orderFault (s.lenList.get a) l c = none) ∧
      startOf s (s.fmt.get a) ≠ [] ∧ (lenCode ∉ s.fmt.get a → endOf s (s.fmt.get a) ≠ []) := by
  obtain ⟨-, hformats, -⟩ := commitFault_eq_none_iff.mp h
  have hformat := hformats a
  rw [formatFaults_eq s a hne, firstOf_append, Option.or_eq_none_iff, faultsFrom_none_iff] at hformat
  simp only [firstOf_eq_none_iff, failing_eq_none_iff, List.forall_mem_cons, List.nil_append, not_and] at hformat
  obtain ⟨horder, hstart, hend, -⟩ := hformat
  exact ⟨horder, hstart, hend⟩

/-- What COMMIT has found of the whole configuration, once it has compiled a format. -/
theorem global_of_commitFault (h : commitFault s = none) (hne : s.fmt.get a ≠ []) :
    0 < s.maxFrame ∧ (lenCode ∈ s.fmt.get a ∨ lenCode ∈ s.crcList.get a ∨ s.lenList.get a ≠ [] →
        s.lenWidth ∈ [1, 2, 4, 8]) ∧
      ¬ (crcCode ∈ s.lenList.get a ∧ lenCode ∈ s.crcList.get a ∧ s.lenCountsWire = true ∧ s.crcStaffed = true ∧
        s.staffEn = true) := by
  obtain ⟨-, -, hglobal⟩ := commitFault_eq_none_iff.mp h
  have ha : a ∈ allActions := by cases a <;> simp [allActions]
  simp only [firstOf_eq_none_iff, globalFaults, List.forall_mem_cons, failing_eq_none_iff] at hglobal
  obtain ⟨-, hwidth, hmax, -, hcircular, -⟩ := hglobal
  refine ⟨Nat.pos_of_ne_zero fun h => hmax ⟨⟨a, ha, hne⟩, h⟩, fun hused => ?_, ?_⟩
  · exact not_not.mp fun hwide => hwidth ⟨⟨a, ha, hused⟩, hwide⟩
  · rintro ⟨hcrc, hlen, hwire, hcs, hen⟩
    exact hcircular ⟨⟨a, ha, hcrc, hlen⟩, hwire, hcs, hen⟩

/-- A format with a `len#` is what stands before the first one, and what stands behind it. -/
theorem eq_append_behindLen {l : List Byte} (h : lenCode ∈ l) : ∃ m, lenCode ∉ m ∧ l = m ++ lenCode :: behindLen l := by
  induction l with
  | nil => cases h
  | cons c l ih =>
    by_cases hc : c = lenCode
    · exact ⟨[], List.not_mem_nil, by simp [behindLen, hc]⟩
    · obtain ⟨m, hm, heq⟩ := ih ((List.mem_cons.mp h).resolve_left (Ne.symm hc))
      refine ⟨c :: m, by simp [hm, Ne.symm hc], ?_⟩
      rw [behindLen, List.dropWhile_cons_of_pos (by simpa using hc), ← behindLen, List.cons_append, ← heq]

/-- An uncovered `data#` does not stand behind a `len#`. -/
theorem ne_data_of_mem_behindLen {c : Byte} (h : commitFault s = none) (hne : s.fmt.get a ≠ [])
    (hc : c ∈ behindLen (s.fmt.get a)) (hcov : c ∉ s.lenList.get a) : c ≠ dataCode := by
  rintro rfl
  obtain ⟨horder, -⟩ := format_of_commitFault h hne
  have hlen : lenCode ∈ s.fmt.get a := by
    by_contra hno
    rw [behindLen_eq_nil hno] at hc
    cases hc
  obtain ⟨pre, -, hsplit⟩ := eq_append_behindLen hlen
  obtain ⟨l, m, hlm⟩ := List.append_of_mem hc
  rw [hlm] at hsplit
  have hfault := horder (pre ++ lenCode :: l) dataCode m (by simpa using hsplit)
  by_cases hdup : ¬ IsConst dataCode ∧ dataCode ∈ pre ++ lenCode :: l
  · rw [orderFault_dup (by decide) hdup] at hfault
    cases hfault
  · rw [orderFault_driven (by decide) hdup (by simp), if_neg hcov] at hfault
    exact failing_eq_none_iff.mp hfault rfl

end

/-! ### Configurations with one format -/

section
variable {s : State} {a : Action} {fmt lens : List Byte}

/-- Without a staffing rule, and with legal widths, nothing is refused over the whole configuration. -/
theorem globalFaults_none (hen : s.staffEn = false) (halg : s.alg < 2) (hmax : 0 < s.maxFrame)
    (hwidth : s.lenWidth ∈ [1, 2, 4, 8] ∨
      ∀ b, lenCode ∉ s.fmt.get b ∧ lenCode ∉ s.crcList.get b ∧ s.lenList.get b = []) :
    firstOf (globalFaults s) = none := by
  have hlenw : ¬ ((∃ b ∈ allActions, lenCode ∈ s.fmt.get b ∨ lenCode ∈ s.crcList.get b ∨ s.lenList.get b ≠ []) ∧
      s.lenWidth ∉ [1, 2, 4, 8]) := by
    rintro ⟨⟨b, -, hused⟩, hwide⟩
    obtain h | h := hwidth
    · exact hwide h
    · obtain ⟨hfmt, hcrcs, hlens⟩ := h b
      obtain hl | hl | hl := hused
      · exact hfmt hl
      · exact hcrcs hl
      · exact hl hlens
  simp only [firstOf_eq_none_iff, globalFaults, List.forall_mem_cons, failing_eq_none_iff]
  refine ⟨Nat.not_le.mpr halg, hlenw, fun h => hmax.ne' h.2, ?_, ?_, by simp⟩
  · simp [BadStaffing, hen]
  · simp [hen]

/-- One format, and nothing else, compiles when its tokens are let through and in order, with constants at its ends. -/
theorem commitFault_onlyFor (hfmt : s.fmt = onlyFor a fmt) (hlens : s.lenList = onlyFor a lens)
    (hcrcs : s.crcList = ⟨[], [], []⟩) (hcodes : ∀ c ∈ fmt, codeFault s [] c = none)
    (hcover : ∀ c ∈ lens, codeFault s [lenCode] c = none) (horder : firstOf (faultsFrom lens [] fmt) = none)
    (hstart : startOf s fmt ≠ []) (hend : lenCode ∈ fmt ∨ endOf s fmt ≠ []) (hglobal : firstOf (globalFaults s) = none) :
    commitFault s = none := by
  refine commitFault_eq_none_iff.mpr ⟨fun b => ?_, fun b => ?_, hglobal⟩
  · rw [listFaults_none_iff s, hfmt, hlens, hcrcs, get_onlyFor, get_onlyFor, get_empty]
    by_cases hb : b = a
    · simpa [hb] using ⟨hcodes, hcover⟩
    · simp [hb]
  · by_cases hb : b = a
    · subst hb
      have hb : s.fmt.get b = fmt := by rw [hfmt, get_onlyFor, if_pos rfl]
      have hne : s.fmt.get b ≠ [] := by
        rintro h
        rw [hb] at h
        rw [h] at hstart
        exact hstart rfl
      rw [formatFaults_eq s b hne, hb, hlens, get_onlyFor, if_pos rfl, firstOf_append, horder, Option.none_or]
      simp only [firstOf_eq_none_iff, List.forall_mem_cons, failing_eq_none_iff, not_and]
      exact ⟨hstart, fun hlen => hend.resolve_left hlen, nofun⟩
    · simp [formatFaults, hfmt, get_onlyFor, hb]

/-- COMMIT of such a configuration locks with the one template. -/
theorem commit_onlyFor {t : Template} (hf : s.faulted = false) (hc : s.committed = false)
    (hfmt : s.fmt = onlyFor a fmt) (h : commitFault s = none) (ht : templateOf s a = some t) :
    ∃ u, exec .commit s = .next u ∧ u.committed = true ∧ u.faulted = false ∧ u.fcode = s.fcode ∧
      u = { s with
        template := PerAction.set ⟨none, none, none⟩ a (some t),
        ctrl := u.ctrl, result := {}, pending := s.pending.tail } := by
  have hother (b : Action) (hb : b ≠ a) : templateOf s b = none := by simp [templateOf, hfmt, get_onlyFor, hb]
  have hlocks := commit_locks hf hc h
  rwa [perAction_eq_set ht hother] at hlocks

/-- The template of the one format. -/
theorem templateOf_onlyFor (hfmt : s.fmt = onlyFor a fmt) (hlens : s.lenList = onlyFor a lens) (hne : fmt ≠ []) :
    templateOf s a = some
      { start := startOf s fmt
        lenOffset := if lenCode ∈ fmt then (startOf s fmt).length else 0
        suffix := ((behindLen fmt).filter (· ∉ lens)).map suffixAs
        endConst := if lenCode ∈ fmt then [] else endOf s fmt
        lenDriven := lenCode ∈ fmt } := by
  rw [templateOf, hfmt, hlens, get_onlyFor, get_onlyFor, if_pos rfl, if_pos rfl]
  exact if_neg hne

end

/-! ### The obligations -/

/-- Settles O39: the two ends of COMMIT, and the host's reading of them. -/
theorem commitReportsTheFirstError : Obligations.CommitReportsTheFirstError := by
  intro s hf hc
  refine ⟨fun c => commit_refuses hf hc, commit_locks hf hc, ?_,
    fun hp hphase => ⟨fun c => boot_refused hf hc hp hphase, boot_done hf hc hp hphase⟩⟩
  intro ks mid post m hfmt hlens hcrcs hm hks hmid hpost
  suffices h : commitFault s = some .cfgMarkerOrder by
    exact commit_refuses hf hc h
  have hnot : ¬ IsConst m := by rintro hc; obtain rfl | rfl | rfl := hm <;> revert hc <;> decide
  have hlists (a : Action) : firstOf (listFaults s a) = none := by
    rw [listFaults_none_iff s, hfmt, hlens, hcrcs, get_onlyFor, get_empty]
    refine ⟨?_, by simp, by simp⟩
    split
    · have hlen : codeFault s [] lenCode = none := codeFault_marker (.inl rfl) (by simp)
      simp only [List.mem_append, List.mem_singleton, or_imp, forall_and, forall_eq]
      exact ⟨⟨⟨⟨codeFault_constCodes hks, codeFault_marker hm (by simp)⟩, codeFault_constCodes hmid⟩, hlen⟩,
        codeFault_constCodes hpost⟩
    · simp
  have hformat : firstOf (formatFaults s .r) = some .cfgMarkerOrder := by
    have hr : s.fmt.get .r = constCodes ks ++ [m] ++ constCodes mid ++ [lenCode] ++ constCodes post := by
      rw [hfmt, get_onlyFor, if_pos rfl]
    have hfirst : orderFault [] (constCodes ks) m = none := by
      have hall : ¬ Seen (constCodes ks) := fun ⟨b, hb, hnb⟩ => hnb (isConst_constCodes b hb)
      by_cases hlen : m = lenCode
      · rw [orderFault, if_pos hlen, failing, if_neg hall]
      · exact orderFault_free hlen (fun h => not_mem_constCodes hnot h.2) (not_mem_constCodes not_isConst_len)
    have hlate : orderFault [] (constCodes ks ++ m :: constCodes mid) lenCode = some .cfgMarkerOrder := by
      rw [orderFault, if_pos rfl, failing, if_pos ⟨m, by simp, hnot⟩]
    rw [formatFaults_eq s .r (by simp [hr]), hlens, get_empty, hr]
    simp [faultsFrom_append, firstOf_append, faultsFrom_constCodes (cov := []) nofun, faultsFrom, firstOf_cons, hfirst, hlate]
  have hall : firstOf (allActions.flatMap (listFaults s)) = none := by
    rw [firstOf_eq_none_iff]
    intro x hx
    obtain ⟨a, -, hx⟩ := List.mem_flatMap.mp hx
    exact firstOf_eq_none_iff.mp (hlists a) x hx
  rw [commitFault, firstOf_append, firstOf_append, hall, Option.none_or]
  simp [firstOf_append, allActions, hformat]

/-- Settles O40: without formats only the algorithm and the staffing rule can be refused. -/
theorem commitWithoutFormats : Obligations.CommitWithoutFormats := by
  intro s hf hc hfmt hlens hcrcs
  have hfault : commitFault s =
      if 2 ≤ s.alg then some .cfgAlg else if BadStaffing s then some .cfgStaff else none := by
    have hlists (a : Action) : listFaults s a = [] := by simp [listFaults, hfmt, hlens, hcrcs, get_empty]
    have hformats (a : Action) : formatFaults s a = [] := by simp [formatFaults, hfmt, get_empty]
    have hglobal : globalFaults s =
        [failing (2 ≤ s.alg) .cfgAlg, none, none, failing (BadStaffing s) .cfgStaff, none] := by
      simp [globalFaults, failing, hfmt, hlens, hcrcs, get_empty]
    rw [commitFault, hglobal]
    simp only [hlists, hformats, allActions, List.flatMap_cons, List.flatMap_nil, failing]
    split
    · rfl
    · split <;> rfl
  by_cases halg : 2 ≤ s.alg
  · simp only [if_pos halg]
    exact commit_refuses hf hc (hfault.trans (if_pos halg))
  · by_cases hbad : BadStaffing s
    · simp only [if_neg halg, if_pos hbad]
      exact commit_refuses hf hc (hfault.trans ((if_neg halg).trans (if_pos hbad)))
    · have htemplate (a : Action) : templateOf s a = none := by simp [templateOf, hfmt, get_empty]
      have hlocks := commit_locks hf hc (hfault.trans ((if_neg halg).trans (if_neg hbad)))
      simp only [htemplate] at hlocks
      simpa only [if_neg halg, if_neg hbad] using hlocks

/-- Settles O37. -/
theorem commitCompilesStartEndFormat : Obligations.CommitCompilesStartEndFormat := by
  intro s a ks es ms hf hc hen halg hmax hfmt hlens hcrcs hne hnodup hms hks hes hstart hend
  have hmarker : ∀ m ∈ ms, ¬ IsConst m := by
    intro m hm
    obtain rfl | rfl := hms m hm <;> decide
  have hlens : s.lenList = onlyFor a [] := by rw [hlens]; cases a <;> rfl
  have hlen : lenCode ∉ constCodes ks ++ ms ++ constCodes es := by
    simp only [List.mem_append, not_or]
    refine ⟨⟨not_mem_constCodes not_isConst_len, fun h => ?_⟩, not_mem_constCodes not_isConst_len⟩
    obtain h | h := hms _ h <;> revert h <;> decide
  have hstartOf : startOf s (constCodes ks ++ ms ++ constCodes es) = constConcat s ks := by
    obtain ⟨m, rest, rfl⟩ := List.exists_cons_of_ne_nil hne
    rw [List.append_assoc]
    exact startOf_constCodes ks (hmarker m (by simp))
  have hendOf := endOf_constCodes (s := s) ks es hmarker hne
  refine commit_onlyFor hf hc hfmt (commitFault_onlyFor hfmt hlens hcrcs ?_ (by simp) ?_ (by rwa [hstartOf])
    (.inr (by rwa [hendOf])) (globalFaults_none hen halg hmax (.inr fun b => ?_))) ?_
  · simp only [List.mem_append, or_imp, forall_and]
    exact ⟨⟨codeFault_constCodes hks, fun c hc => codeFault_marker (.inr (hms c hc)) List.not_mem_nil⟩,
      codeFault_constCodes hes⟩
  · rw [faultsFrom_none_iff]
    intro l c m heq
    by_cases hc : IsConst c
    · exact orderFault_const hc List.not_mem_nil
    have hlenl : lenCode ∉ l := fun h => hlen (by simp [heq, h])
    have hlenc : c ≠ lenCode := fun h => hlen (by simp [heq, h])
    have hcount : (l ++ c :: m).count c ≤ 1 := by
      rw [← heq, List.count_append, List.count_append, List.count_eq_zero.mpr (not_mem_constCodes hc),
        List.count_eq_zero.mpr (not_mem_constCodes hc)]
      simpa using List.nodup_iff_count_le_one.mp hnodup c
    have hnew : c ∉ l := by
      rw [List.count_append, List.count_cons_self] at hcount
      exact List.count_eq_zero.mp (by omega)
    exact orderFault_free hlenc (fun h => hnew h.2) hlenl
  · rw [hfmt, hlens, hcrcs, get_onlyFor, get_onlyFor, get_empty]
    split
    · exact ⟨hlen, List.not_mem_nil, rfl⟩
    · exact ⟨List.not_mem_nil, List.not_mem_nil, rfl⟩
  · rw [templateOf_onlyFor hfmt hlens (by simp [hne]), hstartOf, hendOf, behindLen_eq_nil hlen, if_neg hlen,
      if_neg hlen, decide_eq_false hlen]
    rfl

/-- Settles O38. -/
theorem commitCompilesLengthDrivenFormat : Obligations.CommitCompilesLengthDrivenFormat := by
  intro s a ks suf hf hc hen halg hmax hwidth hfmt hlens hcrcs hdata hcrc hks hsuf hstart
  have hfmt : s.fmt = onlyFor a (constCodes ks ++ lenCode :: dataCode :: suf.map suffixCode) := by simpa using hfmt
  have hlen : lenCode ∈ constCodes ks ++ lenCode :: dataCode :: suf.map suffixCode := by simp
  have hstartOf : startOf s (constCodes ks ++ lenCode :: dataCode :: suf.map suffixCode) = constConcat s ks :=
    startOf_constCodes ks not_isConst_len
  have hbehind (l : List Byte) : behindLen (constCodes ks ++ lenCode :: l) = l := by
    rw [behindLen, List.dropWhile_append_of_pos
      (fun c hc => decide_eq_true (ne_of_mem_of_not_mem hc (not_mem_constCodes not_isConst_len)))]
    simp
  have hkind : ∀ c ∈ suf.map suffixCode, c = crcCode ∨ IsConst c := by
    intro c hc
    obtain ⟨t, ht, rfl⟩ := List.mem_map.mp hc
    exact suffixCode_cases (ne_of_mem_of_not_mem ht hdata)
  have hsuffix : ∀ c ∈ suf.map suffixCode, c ∉ [dataCode] := by
    intro c hc hmem
    rw [List.mem_singleton.mp hmem] at hc
    obtain h | h := hkind _ hc <;> revert h <;> decide
  refine commit_onlyFor hf hc hfmt (commitFault_onlyFor hfmt hlens hcrcs ?_ ?_ ?_ (by rwa [hstartOf])
    (.inl hlen) (globalFaults_none hen halg hmax (.inl (by simpa using hwidth)))) ?_
  · simp only [List.mem_append, List.mem_cons, List.mem_map]
    rintro c (hc | rfl | rfl | ⟨t, ht, rfl⟩)
    · exact codeFault_constCodes hks c hc
    · exact codeFault_marker (.inl rfl) List.not_mem_nil
    · exact codeFault_marker (.inr (.inl rfl)) List.not_mem_nil
    · cases t with
      | data => exact absurd ht hdata
      | crc => exact codeFault_marker (.inr (.inr rfl)) List.not_mem_nil
      | const k => exact codeFault_const (hsuf k ht)
  · simp only [List.forall_mem_singleton]
    exact codeFault_marker (.inr (.inl rfl)) (by decide)
  · have hfirst : orderFault [dataCode] (constCodes ks) lenCode = none := by
      rw [orderFault, if_pos rfl, failing, if_neg fun ⟨b, hb, hnb⟩ => hnb (isConst_constCodes b hb)]
    have hcovered : orderFault [dataCode] (constCodes ks ++ [lenCode]) dataCode = none := by
      have hnew : dataCode ∉ constCodes ks ++ [lenCode] := by
        simpa [not_mem_constCodes not_isConst_data] using (by decide : dataCode ≠ lenCode)
      rw [orderFault_driven (by decide) (fun h => hnew h.2) (by simp), hbehind []]
      simp [failing]
    rw [faultsFrom_append, firstOf_append, faultsFrom_constCodes (by simpa using not_isConst_data), faultsFrom,
      faultsFrom, List.nil_append, hfirst, hcovered]
    show firstOf (faultsFrom [dataCode] _ (suf.map suffixCode)) = none
    rw [faultsFrom_none_iff]
    intro l c m heq
    have hc : c ∈ suf.map suffixCode := by simp [heq]
    have hcount : (l ++ c :: m).count crcCode ≤ 1 := by rwa [← heq, count_suffixCode]
    have hnew : ¬ (¬ IsConst c ∧ c ∈ constCodes ks ++ [lenCode] ++ [dataCode] ++ l) := by
      rintro ⟨hmarker, hmem⟩
      obtain rfl : c = crcCode := (hkind c hc).resolve_right hmarker
      have hnewl : crcCode ∉ l := by
        rw [List.count_append, List.count_cons_self] at hcount
        exact List.count_eq_zero.mp (by omega)
      simp only [List.mem_append, List.mem_singleton] at hmem
      obtain ((h | h) | h) | h := hmem
      · exact not_mem_constCodes not_isConst_crc h
      · revert h; decide
      · revert h; decide
      · exact hnewl h
    have hlenc : c ≠ lenCode := by
      rintro rfl
      obtain h | h := hkind _ hc <;> revert h <;> decide
    rw [orderFault_driven hlenc hnew (by simp), if_neg (hsuffix c hc), failing,
      if_neg fun h => hsuffix c hc (by simp [h])]
  · rw [templateOf_onlyFor hfmt hlens (by simp), hstartOf, if_pos hlen, if_pos hlen, decide_eq_true hlen, hbehind,
      List.filter_cons_of_neg (by simp), List.filter_eq_self.mpr fun c hc => decide_eq_true (hsuffix c hc)]
    have hid : suffixAs ∘ suffixCode = id := funext suffixAs_suffixCode
    rw [List.map_map, hid, List.map_id]

/-- Settles O8: the template is its format's, which COMMIT has found without error. -/
theorem consistentTemplatesWellFormed : Obligations.ConsistentTemplatesWellFormed := by
  intro s a t hs ht
  have hc := committed_of_template hs ht
  obtain ⟨hfault, htemplates⟩ := commitFault_of_committed hs hc
  obtain ⟨hne, rfl⟩ := templateOf_eq_some ((htemplates a).symm.trans ht)
  obtain ⟨-, hstart, hend⟩ := format_of_commitFault hfault hne
  obtain ⟨hmax, hwidth, -⟩ := global_of_commitFault hfault hne
  have hdata : SuffixToken.data ∉ ((behindLen (s.fmt.get a)).filter (· ∉ s.lenList.get a)).map suffixAs := by
    simp only [List.mem_map, List.mem_filter, decide_eq_true_eq, not_exists, not_and, and_imp]
    intro c hc hcov
    rw [suffixAs, if_neg (ne_data_of_mem_behindLen hfault hne hc hcov)]
    split <;> exact nofun
  refine ⟨⟨hstart, ?_, ?_, ?_, hdata⟩, decide_eq_true_iff, hc, hmax, fun h => ?_⟩
  · have hpos : 0 < (startOf s (s.fmt.get a)).length := List.length_pos_iff.mpr hstart
    by_cases hlen : lenCode ∈ s.fmt.get a <;> simp [hlen, hpos]
  · intro h
    exact ⟨if_pos (of_decide_eq_true h), if_pos (of_decide_eq_true h)⟩
  · intro h
    have hlen := of_decide_eq_false h
    exact ⟨fun hnil => hend hlen ((if_neg hlen).symm.trans hnil), by simp [behindLen_eq_nil hlen]⟩
  · simpa using hwidth (.inl (of_decide_eq_true h))

end Sys2Proof.Proofs.Configurations
end

section
/-! PROOFS. Byte staffing (spec/44_staffing.md R601 to R605). UNSTUFF and the source's removal pass both drop an escape byte
behind the bytes of a set (`unescape`); a staffed field reads what UNSTUFF gives, byte by byte. -/

namespace Sys2Proof.Proofs.Staffing

open Sys2Proof.Machine Sys2Proof.Proofs.Commands Sys2Proof.Proofs.Invariants

section
variable {r : StaffRule} {b : Byte} {bs : Buffer}

/-! ### STUFF (R601) -/

theorem stuffBy_of_has (h : r.has b = true) : stuffBy r (b :: bs) = b :: r.esc :: stuffBy r bs := if_pos h

theorem stuffBy_of_not_has (h : r.has b = false) : stuffBy r (b :: bs) = b :: stuffBy r bs :=
  if_neg (Bool.eq_false_iff.mp h)

theorem stuffBy_eq_flatMap (r : StaffRule) (d : Buffer) :
    stuffBy r d = d.flatMap fun b => if r.has b then [b, r.esc] else [b] := by
  induction d with
  | nil => rfl
  | cons b d ih => cases h : r.has b <;> simp [stuffBy, h, ih]

theorem rule_eq_some {s : State} {r : StaffRule} : s.rule = some r ↔ s.staffEn = true ∧ r = ⟨s.esc, s.cfgPat⟩ := by
  unfold State.rule
  by_cases h : s.staffEn = true
  · rw [if_pos h, Option.some.injEq]
    exact ⟨fun heq => ⟨h, heq.symm⟩, fun ⟨_, heq⟩ => heq.symm⟩
  · rw [if_neg h]
    exact ⟨nofun, fun hr => absurd hr.1 h⟩

theorem stuffing_eq_flatMap (s : State) (d : Buffer) : stuffing s.rule d =
    d.flatMap fun b => if s.staffEn && s.cfgPat.getLsbD b.toNat then [b, s.esc] else [b] := by
  unfold State.rule
  cases s.staffEn with
  | true => exact stuffBy_eq_flatMap ⟨s.esc, s.cfgPat⟩ d
  | false => simp [stuffing]

/-! ### UNSTUFF (R602) -/

theorem unstuffBy_of_escaped (h : r.has b = true) : unstuffBy r (b :: r.esc :: bs) = b :: unstuffBy r bs :=
  if_pos ⟨h, rfl⟩

/-- A byte that is no pattern byte, or has no ESC behind it, is kept. -/
theorem unstuffBy_of_not_escaped (h : ¬ (r.has b = true ∧ bs.head? = some r.esc)) :
    unstuffBy r (b :: bs) = b :: unstuffBy r bs := by
  cases bs with
  | nil => rfl
  | cons e bs => exact if_neg fun he => h ⟨he.1, congrArg some he.2⟩

theorem unstuffBy_of_not_has (h : r.has b = false) : unstuffBy r (b :: bs) = b :: unstuffBy r bs :=
  unstuffBy_of_not_escaped fun he => Bool.noConfusion (h.symm.trans he.1)

/-- UNSTUFF undoes STUFF (R604). -/
@[simp] theorem unstuffBy_stuffBy (r : StaffRule) (d : Buffer) : unstuffBy r (stuffBy r d) = d := by
  induction d with
  | nil => rfl
  | cons b d ih =>
    cases h : r.has b with
    | true => rw [stuffBy_of_has h, unstuffBy_of_escaped h, ih]
    | false => rw [stuffBy_of_not_has h, unstuffBy_of_not_has h, ih]

@[simp] theorem unstuffing_stuffing (rule : Option StaffRule) (d : Buffer) :
    unstuffing rule (stuffing rule d) = d := by
  cases rule with
  | none => rfl
  | some r => exact unstuffBy_stuffBy r d

/-- The first byte is kept. -/
theorem exists_unstuffBy_cons (r : StaffRule) (b : Byte) (bs : Buffer) : ∃ u, unstuffBy r (b :: bs) = b :: u := by
  by_cases h : r.has b = true ∧ bs.head? = some r.esc
  · obtain ⟨hb, he⟩ := h
    obtain ⟨rest, rfl⟩ := List.head?_eq_some_iff.mp he
    exact ⟨_, unstuffBy_of_escaped hb⟩
  · exact ⟨_, unstuffBy_of_not_escaped h⟩

/-! ### Well-formed staffed buffers (R604) -/

/-- STUFF undoes UNSTUFF where every pattern byte has its ESC. -/
theorem stuffBy_unstuffBy_iff (r : StaffRule) (x : Buffer) :
    stuffBy r (unstuffBy r x) = x ↔ wellStaffed r x = true := by
  fun_induction wellStaffed r x with
  | case1 => simp [unstuffBy, stuffBy]
  | case2 b => cases h : r.has b <;> simp [unstuffBy, stuffBy, h]
  | case3 b e bs hb ih =>
    by_cases he : e = r.esc
    · subst he
      simpa [unstuffBy_of_escaped hb, stuffBy_of_has hb] using ih
    · rw [unstuffBy_of_not_escaped (by simp [he]), stuffBy_of_has hb]
      simp [he, Ne.symm he]
  | case4 b e bs hb ih =>
    have hb : r.has b = false := by simpa using hb
    simpa [unstuffBy_of_not_has hb, stuffBy_of_not_has hb] using ih

end

/-! ### Staffed fields (R605) -/

section
variable (c : SplitCtx) (r : StaffRule)

@[simp] theorem staffedField_zero (l : Buffer) (pos : Nat) : c.staffedField r l 0 pos = .ok ([], pos) := by
  match l with
  | [] | [_] | _ :: _ :: _ => rfl

variable {c r} {b : Byte} {l : Buffer} {n pos : Nat}

theorem staffedField_of_escaped (hb : r.has b = true) (hpos : pos + 1 < c.max) :
    c.staffedField r (b :: r.esc :: l) (n + 1) pos = consField b (c.staffedField r l n (pos + 2)) := by
  have hmax : ¬ c.max ≤ pos := by omega
  simp [SplitCtx.staffedField, hb, hpos, hmax]

theorem staffedField_of_not_has (hb : r.has b = false) (hpos : pos < c.max) :
    c.staffedField r (b :: l) (n + 1) pos = consField b (c.staffedField r l n (pos + 1)) := by
  have hmax : ¬ c.max ≤ pos := by omega
  cases l with
  | nil => cases n <;> simp [SplitCtx.staffedField, hb, hmax, consField]
  | cons e l => simp [SplitCtx.staffedField, hb, hmax]

/-- A staffed field reads staffed bytes back, over all of them. -/
theorem staffedField_stuffBy (c : SplitCtx) (r : StaffRule) (d rest : Buffer) (pos : Nat)
    (h : pos + (stuffBy r d).length ≤ c.max) :
    c.staffedField r (stuffBy r d ++ rest) d.length pos = .ok (d, pos + (stuffBy r d).length) := by
  induction d generalizing pos with
  | nil => exact staffedField_zero c r _ pos
  | cons b d ih =>
    cases hb : r.has b with
    | true =>
      rw [stuffBy_of_has hb] at h ⊢
      simp only [List.length_cons] at h
      rw [List.cons_append, List.cons_append, List.length_cons, staffedField_of_escaped hb (by omega),
        ih (pos + 2) (by omega), consField]
      simp only [List.length_cons]
      congr 2
      omega
    | false =>
      rw [stuffBy_of_not_has hb] at h ⊢
      simp only [List.length_cons] at h
      rw [List.cons_append, List.length_cons, staffedField_of_not_has hb (by omega), ih (pos + 1) (by omega), consField]
      simp only [List.length_cons]
      congr 2
      omega

theorem consField_eq_ok {x : Except SplitExit (Buffer × Nat)} {out : Buffer} {p : Nat}
    (h : consField b x = .ok (out, p)) : ∃ bs, x = .ok (bs, p) ∧ out = b :: bs := by
  cases x with
  | error e => cases h
  | ok y => cases h; exact ⟨_, rfl, rfl⟩

/-- A staffed field past M reads no byte. -/
theorem staffedField_past {out : Buffer} {p : Nat} (hmax : c.max ≤ pos)
    (h : c.staffedField r l n pos = .ok (out, p)) : n = 0 := by
  by_contra hn
  match l with
  | [] | [_] | _ :: _ :: _ => simp [SplitCtx.staffedField, hn, hmax] at h

/-- What a staffed field reads is what UNSTUFF gives. -/
theorem staffedField_unstuffs {out : Buffer} {p : Nat} (h : c.staffedField r l n pos = .ok (out, p)) :
    out = (unstuffBy r l).take n ∧ out.length = n := by
  fun_induction SplitCtx.staffedField c r l n pos generalizing out with
  | case1 | case3 | case8 => cases h; simp_all
  | case2 | case4 | case5 | case7 | case9 => cases h
  | case6 b pos => cases h; simp [unstuffBy]
  | case10 b e bs n pos hn hmax hesc ih =>
    obtain ⟨hb, -, rfl⟩ := hesc
    obtain ⟨bs', hrest, rfl⟩ := consField_eq_ok h
    obtain ⟨rfl, hlen⟩ := ih hrest
    obtain ⟨m, rfl⟩ := Nat.exists_eq_succ_of_ne_zero hn
    rw [unstuffBy_of_escaped hb]
    exact ⟨rfl, congrArg Nat.succ hlen⟩
  | case11 b e bs n pos hn hmax hesc ih =>
    obtain ⟨bs', hrest, rfl⟩ := consField_eq_ok h
    obtain ⟨rfl, hlen⟩ := ih hrest
    obtain ⟨m, rfl⟩ := Nat.exists_eq_succ_of_ne_zero hn
    refine ⟨?_, congrArg Nat.succ hlen⟩
    by_cases hescaped : r.has b = true ∧ (e :: bs).head? = some r.esc
    · obtain ⟨hb, he⟩ := hescaped
      have hpast : c.max ≤ pos + 1 := Nat.not_lt.mp fun hlt => hesc ⟨hb, hlt, Option.some.inj he⟩
      obtain rfl : m = 0 := staffedField_past hpast hrest
      obtain ⟨u, hu⟩ := exists_unstuffBy_cons r b (e :: bs)
      rw [hu]
      rfl
    · rw [unstuffBy_of_not_escaped hescaped]
      rfl

end

/-! ### The source's passes (R603) -/

/-- An escape byte is dropped behind each byte of a set. -/
def unescape (q : Byte → Bool) (esc : Byte) : Buffer → Buffer
  | [] => []
  | [b] => [b]
  | b :: e :: bs => if q b ∧ e = esc then b :: unescape q esc bs else b :: unescape q esc (e :: bs)

theorem unstuffBy_eq_unescape (r : StaffRule) (d : Buffer) : unstuffBy r d = unescape r.has r.esc d := by
  fun_induction unstuffBy r d <;> simp_all [unescape]

theorem removePass_eq_unescape (esc p : Byte) (d : Buffer) :
    removePass esc p d = unescape (fun b => b = p) esc d := by
  fun_induction removePass esc p d <;> simp_all [unescape]

section
variable {q q' : Byte → Bool} {esc b : Byte} {bs : Buffer}

theorem unescape_of_escaped (h : q b = true) : unescape q esc (b :: esc :: bs) = b :: unescape q esc bs := if_pos ⟨h, rfl⟩

theorem unescape_of_not_escaped (h : ¬ (q b = true ∧ bs.head? = some esc)) :
    unescape q esc (b :: bs) = b :: unescape q esc bs := by
  cases bs with
  | nil => rfl
  | cons e bs => exact if_neg fun he => h ⟨he.1, congrArg some he.2⟩

theorem head?_unescape (q : Byte → Bool) (esc : Byte) (d : Buffer) : (unescape q esc d).head? = d.head? := by
  fun_cases unescape q esc d <;> rfl

theorem unescape_none (d : Buffer) : unescape (fun _ => false) esc d = d := by
  induction d with
  | nil => rfl
  | cons b d ih => rw [unescape_of_not_escaped fun h => Bool.noConfusion h.1, ih]

/-- Dropping the escape bytes behind two sets, one after the other, is dropping them behind both, where the sets are
disjoint and the first does not hold the escape byte. -/
theorem unescape_unescape (hesc : q esc = false) (hdisj : ∀ b, q b = true → q' b = false)
    (d : Buffer) : unescape q' esc (unescape q esc d) = unescape (fun b => q b || q' b) esc d := by
  induction hn : d.length using Nat.strong_induction_on generalizing d with
  | _ n ih =>
    cases d with
    | nil => rfl
    | cons b bs =>
      have hbs := ih bs.length (by simp [← hn]) bs rfl
      by_cases he : bs.head? = some esc
      · obtain ⟨rest, rfl⟩ := List.head?_eq_some_iff.mp he
        have hrest := ih rest.length (by simp only [← hn, List.length_cons]; omega) rest rfl
        have hkept : unescape q esc (esc :: rest) = esc :: unescape q esc rest :=
          unescape_of_not_escaped (by simp [hesc])
        cases hb : q b with
        | true =>
          rw [unescape_of_escaped hb, unescape_of_escaped (by simp [hb]),
            unescape_of_not_escaped (by simp [hdisj b hb]), hrest]
        | false =>
          rw [unescape_of_not_escaped (by simp [hb])]
          cases hb' : q' b with
          | true => rw [hkept, unescape_of_escaped hb', unescape_of_escaped (by simp [hb']), hrest]
          | false => rw [unescape_of_not_escaped (q := fun b => q b || q' b) (b := b) (by simp [hb, hb']), ← hbs, hkept,
              unescape_of_not_escaped (by simp [hb'])]
      · rw [unescape_of_not_escaped (fun h => he h.2), unescape_of_not_escaped (fun h => he h.2),
          unescape_of_not_escaped (by rw [head?_unescape]; exact fun h => he h.2), hbs]

end

section
variable {esc : Byte}

/-- The removal passes, in the order of the list, drop the escape bytes behind all of its bytes. -/
theorem removePasses_eq_unescape {ps : List Byte} (hnodup : ps.Nodup) (hesc : esc ∉ ps ∨ ps = [esc]) (d : Buffer) :
    removePasses esc ps d = unescape (fun b => b ∈ ps) esc d := by
  induction ps generalizing d with
  | nil => simpa [removePasses] using (unescape_none d).symm
  | cons p ps ih =>
    obtain ⟨hp, hps⟩ := List.nodup_cons.mp hnodup
    obtain hesc | heq := hesc
    · obtain ⟨hne, hesc⟩ : esc ≠ p ∧ esc ∉ ps := by simpa using hesc
      have hboth := unescape_unescape (q := fun b => b = p) (q' := fun b => b ∈ ps) (by simpa using hne)
        (by simpa using hp) d
      rw [removePasses, List.foldl_cons, ← removePasses, ih hps (.inl hesc), removePass_eq_unescape, hboth]
      simp
    · obtain ⟨rfl, rfl⟩ := List.cons.inj heq
      simpa [removePasses] using removePass_eq_unescape p p d

/-- The insertion passes, in the order of the list, put an escape byte behind each of its bytes. -/
theorem insertPasses_eq_flatMap {ps : List Byte} (hnodup : ps.Nodup) (hesc : esc ∉ ps.tail) (d : Buffer) :
    insertPasses esc ps d = d.flatMap fun b => if b ∈ ps then [b, esc] else [b] := by
  induction ps generalizing d with
  | nil => simp [insertPasses]
  | cons p ps ih =>
    obtain ⟨hp, hps⟩ := List.nodup_cons.mp hnodup
    rw [insertPasses, List.foldl_cons, ← insertPasses, ih hps fun h => hesc (List.mem_of_mem_tail h), insertPass,
      List.flatMap_assoc]
    refine List.flatMap_congr fun b _ => ?_
    have hesc : esc ∉ ps := hesc
    by_cases hb : b = p
    · simp [hb, hp, hesc]
    · simp [hb]

end

/-- The escape byte of an admitted rule is no pattern byte, or the only one. -/
theorem esc_of_admitted {r : StaffRule} {ps : List Byte} (h : r.admitted = true) (hnodup : ps.Nodup)
    (hps : ∀ b, b ∈ ps ↔ r.has b = true) : r.esc ∉ ps ∨ ps = [r.esc] := by
  rw [StaffRule.admitted, Bool.or_eq_true, decide_eq_true_iff, Bool.not_eq_true'] at h
  obtain h | h := h
  · exact .inl fun hmem => Bool.noConfusion (h.symm.trans ((hps _).mp hmem))
  · have hmem (b : Byte) : b ∈ ps ↔ b ∈ [r.esc] := by
      rw [hps, StaffRule.has, h, Compiler.getLsbD_escOnly, decide_eq_true_iff, List.mem_singleton]
    exact .inr (List.perm_singleton.mp ((List.perm_ext_iff_of_nodup hnodup (List.nodup_singleton _)).mpr hmem))

/-! ### The obligations -/

/-- Settles O49. -/
theorem staffedFieldReadsUnstuffedBytes : Obligations.StaffedFieldReadsUnstuffedBytes :=
  ⟨fun _ _ _ _ _ _ _ => staffedField_unstuffs, staffedField_stuffBy⟩

/-- Settles O51: rules that are not admitted included. -/
theorem stuffOfUnstuffIffWellStaffed : Obligations.StuffOfUnstuffIffWellStaffed := fun r x _ => stuffBy_unstuffBy_iff r x

/-- Settles O52: the passes over a list of bytes are one pass over the set. -/
theorem staffingIsThePerPatternPasses : Obligations.StaffingIsThePerPatternPasses := by
  intro r ps h hnodup hps d
  have hesc := esc_of_admitted h hnodup hps
  have hset : (fun b => decide (b ∈ ps)) = r.has := funext fun b => Bool.eq_iff_iff.mpr (by simpa using hps b)
  constructor
  · rw [insertPasses_eq_flatMap hnodup, stuffBy_eq_flatMap]
    · simp [hps]
    · obtain h | rfl := hesc
      · exact fun hmem => h (List.mem_of_mem_tail hmem)
      · exact List.not_mem_nil
  · rw [removePasses_eq_unescape hnodup hesc, unstuffBy_eq_unescape, hset]

/-- Settles O50. -/
theorem stuffThenUnstuffGivesTheBufferBack : Obligations.StuffThenUnstuffGivesTheBufferBack := by
  constructor
  · intro s hf hc
    refine ⟨_, rfl, ?_, ?_⟩
    · rw [← stuffing_eq_flatMap]
      exact exec_of_answer_ok ⟨hf, fun _ => hc⟩ rfl
    · rw [← stuffing_eq_flatMap]
      refine (exec_issue s ⟨hf, fun _ => hc⟩ rfl).trans ?_
      rw [resultOf, unstuffing_stuffing]
  · intro s hf hc
    have hanswers (buf u : Buffer) (h : unstuffing s.rule buf = u) :
        s.Answers .unstuff { buf := buf } { bytes := some u } :=
      (answers_iff s _ (i := .unstuff) ⟨hf, fun _ => hc⟩ rfl).mpr (by rw [← h]; rfl)
    refine ⟨hanswers [] [] (by cases s.rule <;> rfl), fun b bs =>
      ⟨fun hen hb => ⟨_, hanswers bs _ rfl, hanswers _ _ ?_⟩, fun hkept => ⟨_, hanswers bs _ rfl, hanswers _ _ ?_⟩⟩⟩
    · have hrule : s.rule = some ⟨s.esc, s.cfgPat⟩ := if_pos hen
      rw [hrule]
      exact unstuffBy_of_escaped hb
    · cases hrule : s.rule with
      | none => rfl
      | some r =>
        obtain ⟨hen, rfl⟩ := rule_eq_some.mp hrule
        exact unstuffBy_of_not_escaped fun h => hkept ⟨hen, h⟩

end Sys2Proof.Proofs.Staffing
end

section
/-! PROOFS. Checksums (spec/45_checksum.md R700, R710, R711, R720, R721). A step of the CRC is linear over xor, so eight of
them may be taken over a register's low byte alone, which is what CRCTAB holds. -/

namespace Sys2Proof.Proofs.Checksums

open Sys2Proof.Machine Sys2Proof.Proofs.Commands Sys2Proof.Proofs.Invariants

/-! ### The byte sum (R700) -/

theorem foldl_add_toNat (b : Buffer) (x : Byte) :
    (b.foldl (· + ·) x).toNat = (x.toNat + (b.map BitVec.toNat).sum) % 256 := by
  induction b generalizing x with
  | nil => simp [Nat.mod_eq_of_lt x.isLt]
  | cons c b ih => simp [ih, BitVec.toNat_add, Nat.add_assoc]

theorem mod256_toNat (b : Buffer) : (mod256 b).toNat = (b.map BitVec.toNat).sum % 256 := by
  simp [mod256, foldl_add_toNat]

/-! ### CRC-16, bit by bit (R45, R711) -/

theorem crcBitStep_xor (x y : BitVec 16) : crcBitStep (x ^^^ y) = crcBitStep x ^^^ crcBitStep y := by
  have hself (p q : BitVec 16) : (p ^^^ 0xA001) ^^^ (q ^^^ 0xA001) = p ^^^ q := by
    rw [BitVec.xor_assoc, BitVec.xor_comm 0xA001, BitVec.xor_assoc, BitVec.xor_self, BitVec.xor_zero]
  unfold crcBitStep
  rw [BitVec.getLsbD_xor, BitVec.ushiftRight_xor_distrib]
  cases x.getLsbD 0 <;> cases y.getLsbD 0
  · rfl
  · exact BitVec.xor_assoc _ _ _
  · show (x >>> 1 ^^^ y >>> 1) ^^^ 0xA001 = (x >>> 1 ^^^ 0xA001) ^^^ y >>> 1
    rw [BitVec.xor_assoc, BitVec.xor_comm (y >>> 1), BitVec.xor_assoc]
  · exact (hself _ _).symm

theorem crcBitSteps_xor (n : Nat) (x y : BitVec 16) :
    crcBitSteps n (x ^^^ y) = crcBitSteps n x ^^^ crcBitSteps n y := by
  induction n generalizing x y with
  | zero => rfl
  | succ n ih => rw [crcBitSteps, crcBitStep_xor, ih, crcBitSteps, crcBitSteps]

/-- The steps shift a register's high bits down as long as its low bits are zero. -/
theorem crcBitSteps_shiftLeft {n : Nat} {h : BitVec 16} (hlt : h.toNat * 2 ^ n < 2 ^ 16) :
    crcBitSteps n (h <<< n) = h := by
  induction n with
  | zero => exact BitVec.shiftLeft_zero h
  | succ n ih =>
    have hstep : crcBitStep (h <<< (n + 1)) = h <<< n := by
      rw [crcBitStep, if_neg (by simp)]
      apply BitVec.eq_of_toNat_eq
      rw [Nat.pow_succ, ← Nat.mul_assoc] at hlt
      rw [BitVec.toNat_ushiftRight, BitVec.toNat_shiftLeft, BitVec.toNat_shiftLeft, Nat.shiftLeft_eq, Nat.shiftLeft_eq,
        Nat.shiftRight_eq_div_pow, Nat.pow_succ, ← Nat.mul_assoc, Nat.mod_eq_of_lt (by omega), Nat.mod_eq_of_lt (by omega)]
      omega
    rw [crcBitSteps, hstep]
    exact ih (by rw [Nat.pow_succ, ← Nat.mul_assoc] at hlt; omega)

theorem foldl_crcBitStep (n : Nat) (x : BitVec 16) :
    (List.range n).foldl (fun c _ => crcBitStep c) x = crcBitSteps n x := by
  induction n generalizing x with
  | zero => rfl
  | succ n ih => rw [List.range_succ_eq_map, List.foldl_cons, List.foldl_map, ih, crcBitSteps]

/-- The register with a byte put in is its high byte above its low byte with the byte put in. -/
theorem xor_setWidth (c : BitVec 16) (b : Byte) :
    c ^^^ b.setWidth 16 = ((c >>> 8) <<< 8) ^^^ (c.extractLsb' 0 8 ^^^ b).setWidth 16 := by
  refine BitVec.eq_of_getLsbD_eq fun i hi => ?_
  by_cases h : i < 8
  · simp [h, hi]
  · have hb : b.getLsbD i = false := BitVec.getLsbD_of_ge b i (Nat.not_lt.mp h)
    simp [h, hi, hb, Nat.add_sub_cancel' (Nat.not_lt.mp h)]

/-- A byte of the table-driven form is a byte of the bit-serial form. -/
theorem crcByte_eq_serial (c : BitVec 16) (b : Byte) : crcByte c b = crcSerialByte c b := by
  have hhigh : (c >>> 8).toNat * 2 ^ 8 < 2 ^ 16 := by
    rw [BitVec.toNat_ushiftRight, Nat.shiftRight_eq_div_pow]
    have := c.isLt
    omega
  calc crcByte c b = crcBitSteps 8 ((c >>> 8) <<< 8) ^^^ crcBitSteps 8 ((c.extractLsb' 0 8 ^^^ b).setWidth 16) := by
        rw [crcBitSteps_shiftLeft hhigh, crcByte, crcTab]
    _ = crcBitSteps 8 (c ^^^ b.setWidth 16) := by rw [← crcBitSteps_xor, ← xor_setWidth]
    _ = crcSerialByte c b := (foldl_crcBitStep 8 _).symm

theorem crc16Value_eq_serial (b : Buffer) : crc16Value b = crcSerial b := by
  have h : crcByte = crcSerialByte := funext fun c => funext fun x => crcByte_eq_serial c x
  rw [crc16Value, crcSerial, h]

/-! ### CRC16's bytes (R710) -/

/-- The bytes of a 16-bit number, low byte first. -/
theorem bytesLE_two (c : BitVec 16) : bytesOf .le 2 c.toNat = [c.extractLsb' 0 8, (c >>> 8).extractLsb' 0 8] := by
  have hc := c.isLt
  have hmod : ((c.toNat : Int) % 2 ^ (8 * 2)).toNat = c.toNat := by omega
  simp only [bytesOf, hmod, bytesLE]
  have hlo : BitVec.ofNat 8 c.toNat = c.extractLsb' 0 8 := BitVec.eq_of_toNat_eq (by simp)
  have hhi : BitVec.ofNat 8 (c.toNat / 256) = (c >>> 8).extractLsb' 0 8 :=
    BitVec.eq_of_toNat_eq (by simp [Nat.shiftRight_eq_div_pow])
  rw [hlo, hhi]

theorem low_append {m n : Nat} (x : BitVec m) (y : BitVec n) : (x ++ y).extractLsb' 0 n = y := by
  refine BitVec.eq_of_getLsbD_eq fun i hi => ?_
  simp [BitVec.getLsbD_append, hi]

theorem high_append {m n : Nat} (x : BitVec m) (y : BitVec n) : ((x ++ y) >>> n).extractLsb' 0 m = x := by
  refine BitVec.eq_of_getLsbD_eq fun i hi => ?_
  simp [BitVec.getLsbD_append, hi]

theorem crc16Bytes_le (b : Buffer) :
    crc16Bytes .le b = [(crc16Value b).extractLsb' 0 8, (crc16Value b >>> 8).extractLsb' 0 8] := bytesLE_two _

theorem crc16Bytes_be (b : Buffer) :
    crc16Bytes .be b = [(crc16Value b >>> 8).extractLsb' 0 8, (crc16Value b).extractLsb' 0 8] :=
  congrArg List.reverse (crc16Bytes_le b)

/-- A register that takes in its own low byte only shifts. -/
theorem crcByte_own (c : BitVec 16) : crcByte c (c.extractLsb' 0 8) = c >>> 8 := by
  have htab : crcTab 0#8 = 0#16 := by decide
  rw [crcByte, BitVec.xor_self, htab, BitVec.xor_zero]

/-- A buffer with its own CRC behind it, low byte first, has CRC zero. -/
theorem crc16Value_append_own (b : Buffer) : crc16Value (b ++ crc16Bytes .le b) = 0 := by
  rw [crc16Bytes_le, crc16Value, List.foldl_append, ← crc16Value, List.foldl_cons, List.foldl_cons, List.foldl_nil,
    crcByte_own, crcByte_own]
  have hlt := (crc16Value b).isLt
  apply BitVec.eq_of_toNat_eq
  rw [BitVec.toNat_ushiftRight, BitVec.toNat_ushiftRight, Nat.shiftRight_eq_div_pow, Nat.shiftRight_eq_div_pow]
  show _ = 0
  omega

/-! ### The configured checksum (R720, R721) -/

@[simp] theorem chk_length (s : State) (b : Buffer) : (chk s b).length = chkLen s := by
  unfold chk chkLen
  split
  · rfl
  · exact Values.bytesOf_length _ _ _

/-! ### The obligations -/

/-- Settles O53. -/
theorem mod256IsTheByteSum : Obligations.Mod256IsTheByteSum := fun s hf =>
  ⟨mod256 s.operands.buf, exec_of_answer_ok ⟨hf, nofun⟩ rfl, mod256_toNat _⟩

/-- Settles O54: the bytes of the two-byte number whose bytes are given. -/
theorem crc16IsBitSerial : Obligations.Crc16IsBitSerial := by
  intro s hf lo hi hserial
  rw [← crc16Value_eq_serial] at hserial
  have hlo : (crc16Value s.operands.buf).extractLsb' 0 8 = lo := by
    rw [hserial]
    exact low_append hi lo
  have hhi : (crc16Value s.operands.buf >>> 8).extractLsb' 0 8 = hi := by
    rw [hserial]
    exact high_append hi lo
  have hle : crc16Bytes .le s.operands.buf = [lo, hi] := by rw [crc16Bytes_le, hlo, hhi]
  have hbe : crc16Bytes .be s.operands.buf = [hi, lo] := by rw [crc16Bytes_be, hlo, hhi]
  exact ⟨exec_of_answer_ok ⟨hf, nofun⟩ (by rw [answer, hle]), exec_of_answer_ok ⟨hf, nofun⟩ (by rw [answer, hbe])⟩

/-- Settles O55. -/
theorem crc16ResidueIsZero : Obligations.Crc16ResidueIsZero := by
  intro s ord b hf
  have hzero : crc16Bytes ord (b ++ crc16Bytes .le b) = [0x00, 0x00] := by
    rw [crc16Bytes, crc16Value_append_own]
    cases ord <;> rfl
  have hpass (ord : Order) : Passes s (.crc16 ord) := ⟨hf, nofun⟩
  refine ⟨crc16Bytes .le b, exec_issue s (hpass .le) rfl, ?_⟩
  rw [exec_issue s (hpass ord) (o := { buf := b ++ crc16Bytes .le b }) rfl, resultOf, hzero]

/-- Settles O56. -/
theorem chksumIsTheConfiguredChecksum : Obligations.ChksumIsTheConfiguredChecksum := by
  intro s hf hc
  refine ⟨chk s s.operands.buf, exec_of_answer_ok ⟨hf, fun _ => hc⟩ rfl, chk_length s _, ?_⟩
  unfold chk
  split
  · exact exec_of_answer_ok ⟨hf, nofun⟩ rfl
  · exact exec_of_answer_ok ⟨hf, nofun⟩ rfl

end Sys2Proof.Proofs.Checksums
end

section
/-! PROOFS. The length, the checksum and the bytes of a frame (spec/45_checksum.md R730, R740, R750, R760, R770). The
operations run over tokens and carry a total; over a list of assigned codes they are sums and concatenations. -/

namespace Sys2Proof.Proofs.Frames

open Sys2Proof.Machine Sys2Proof.Proofs.Commands Sys2Proof.Proofs.Invariants Sys2Proof.Proofs.Compiler
  Sys2Proof.Proofs.Configurations Sys2Proof.Proofs.Checksums

section
variable {s : State} {a : Action} {data : Buffer} {l : Nat} {c : Byte}

/-! ### CALCCRC (R740) -/

theorem calcCrc_ok (h : lenCode ∈ s.crcList.get a → l < 2 ^ (8 * s.lenWidth)) :
    calcCrc s a data l = .ok (crcOver s a data l) :=
  if_neg fun ⟨hmem, hover⟩ => Nat.not_le.mpr (h hmem) (of_decide_eq_true hover)

theorem calcCrc_error (hmem : lenCode ∈ s.crcList.get a) (h : 2 ^ (8 * s.lenWidth) ≤ l) :
    calcCrc s a data l = .error .operand :=
  if_pos ⟨hmem, decide_eq_true h⟩

@[simp] theorem crcOver_length (s : State) (a : Action) (data : Buffer) (l : Nat) :
    (crcOver s a data l).length = chkLen s := chk_length s _

/-- A checksum that does not cover the length does not depend on it. -/
theorem crcOver_eq_of_not_mem (h : lenCode ∉ s.crcList.get a) (l m : Nat) : crcOver s a data l = crcOver s a data m := by
  rw [crcOver, crcOver, tokensOf, List.flatMap_map, List.flatMap_map]
  congr 1
  refine List.flatMap_congr fun c hc => ?_
  have hne : tokenOf c ≠ .len := by
    intro heq
    unfold tokenOf at heq
    split_ifs at heq with hlen
    have hlen : c = lenCode := hlen
    exact h (hlen ▸ hc)
  cases hk : tokenOf c with
  | len => exact absurd hk hne
  | _ => rfl

/-- The token of an assigned code contributes that code's logical bytes. -/
theorem coveredBytes_tokenOf (h : c = lenCode ∨ c = dataCode ∨ IsConst c) :
    coveredBytes s data l (tokenOf c) = logicalBytes s data l c := by
  obtain rfl | rfl | hconst := h
  · rfl
  · rfl
  · obtain ⟨hlen, hdata, -⟩ := ne_marker hconst
    rw [tokenOf_const hconst, logicalBytes]
    exact ((if_neg hlen).trans (if_neg hdata)).symm

theorem crcOver_eq (h : ∀ c ∈ s.crcList.get a, c = lenCode ∨ c = dataCode ∨ IsConst c) :
    crcOver s a data l = chk s (coveredBuffer s a data l) := by
  rw [crcOver, coveredBuffer, tokensOf, List.flatMap_map]
  congr 1
  exact List.flatMap_congr fun c hc => coveredBytes_tokenOf (h c hc)

/-! ### CALCLEN (R730) -/

@[simp] theorem stuffing_length (rule : Option StaffRule) (b : Buffer) :
    (stuffing rule b).length = stuffedLength rule b := by
  cases rule with
  | none => rfl
  | some r =>
    show (stuffBy r b).length = b.length + b.countP fun x => r.has x
    induction b with
    | nil => rfl
    | cons x b ih =>
      cases h : r.has x with
      | true => simp [Staffing.stuffBy_of_has h, h, ih]; omega
      | false => simp [Staffing.stuffBy_of_not_has h, h, ih]; omega

/-- The token of an assigned code adds that code's length. -/
theorem tokenLen_tokenOf (h : c = dataCode ∨ c = crcCode ∨ IsConst c) :
    tokenLen s a data (tokenOf c) = .ok (lengthOf s a data c) := by
  obtain rfl | rfl | hconst := h
  · show Except.ok (if s.lenCountsWire then (stuffing s.rule data).length else data.length) = _
    rw [stuffing_length]
    rfl
  · have hcrc : calcCrc s a data 0 = .ok (crcOver s a data 0) := calcCrc_ok fun _ => Nat.two_pow_pos _
    have hlength : lengthOf s a data crcCode =
      if s.lenCountsWire && s.crcStaffed then stuffedLength s.rule (crcOver s a data 0) else chkLen s := rfl
    show tokenLen s a data .crc = _
    rw [tokenLen, hcrc, hlength]
    cases s.lenCountsWire && s.crcStaffed with
    | false => rfl
    | true => cases hrule : s.rule <;> simp [stuffedLength]
  · obtain ⟨-, hdata, hcrc⟩ := ne_marker hconst
    rw [tokenOf_const hconst, lengthOf]
    exact congrArg Except.ok ((if_neg hdata).trans (if_neg hcrc)).symm

theorem totalLen_eq {cs : List Byte} (h : ∀ c ∈ cs, c = dataCode ∨ c = crcCode ∨ IsConst c) (n : Nat) :
    totalLen s a data (tokensOf cs) n = .ok (n + (cs.map (lengthOf s a data)).sum) := by
  induction cs generalizing n with
  | nil => rfl
  | cons c cs ih =>
    obtain ⟨hc, hcs⟩ := List.forall_mem_cons.mp h
    rw [tokensOf, List.map_cons, totalLen, tokenLen_tokenOf hc, ← tokensOf]
    simp only [ih hcs, List.map_cons, List.sum_cons, Nat.add_assoc]

theorem calcLen_eq (h : ∀ c ∈ s.lenList.get a, c = dataCode ∨ c = crcCode ∨ IsConst c) :
    calcLen s a data = if ((s.lenList.get a).map (lengthOf s a data)).sum < 2 ^ (8 * s.lenWidth) then
      .ok ((s.lenList.get a).map (lengthOf s a data)).sum else .error .lenOverflow := by
  rw [calcLen, totalLen_eq h, Nat.zero_add]
  simp only [lenOverflows, decide_eq_true_eq, ← Nat.not_lt, ite_not]

theorem lt_of_calcLen (h : calcLen s a data = .ok l) : l < 2 ^ (8 * s.lenWidth) := by
  unfold calcLen at h
  split at h
  · cases h
  · split at h
    · cases h
    · next hfits =>
      cases h
      simpa [lenOverflows] using hfits

/-! ### BUILD (R750) -/

theorem wireBytes_tokenOf {b : Buffer} (h : Assigned c) :
    wireBytes s data l b (tokenOf c) = frameBytes s data l b c := by
  obtain rfl | rfl | rfl | hconst := h
  · rfl
  · rfl
  · rfl
  · obtain ⟨hlen, hdata, hcrc⟩ := ne_marker hconst
    rw [tokenOf_const hconst, frameBytes]
    exact ((if_neg hlen).trans ((if_neg hdata).trans (if_neg hcrc))).symm

/-- The bytes of a format without `len#` do not depend on the length value. -/
theorem frameBytes_eq_of_ne {b : Buffer} (h : c ≠ lenCode) (l m : Nat) :
    frameBytes s data l b c = frameBytes s data m b c := by
  exact (if_neg h).trans (if_neg h).symm

theorem buildFrame_eq (hfmt : ∀ c ∈ s.fmt.get a, Assigned c) (hlen : buildLen s a data = .ok l)
    (hfits : lenCode ∈ s.crcList.get a → l < 2 ^ (8 * s.lenWidth)) :
    buildFrame s a data = .ok ((s.fmt.get a).flatMap (frameBytes s data l (crcOver s a data l))) := by
  rw [buildFrame, hlen]
  simp only [calcCrc_ok hfits, tokensOf, List.flatMap_map]
  congr 1
  exact List.flatMap_congr fun c hc => wireBytes_tokenOf (hfmt c hc)

/-- When CALCLEN answers l, BUILD's frame is that of l, whether or not it uses the length. -/
theorem buildFrame_of_calcLen (hfmt : ∀ c ∈ s.fmt.get a, Assigned c) (hlen : calcLen s a data = .ok l) :
    buildFrame s a data = .ok ((s.fmt.get a).flatMap (frameBytes s data l (crcOver s a data l))) := by
  by_cases hused : lenCode ∈ s.fmt.get a ∨ lenCode ∈ s.crcList.get a
  · exact buildFrame_eq hfmt ((if_pos hused).trans hlen) fun _ => lt_of_calcLen hlen
  · obtain ⟨hnofmt, hnocrc⟩ := not_or.mp hused
    rw [buildFrame_eq hfmt (if_neg hused) fun h => absurd h hnocrc, crcOver_eq_of_not_mem hnocrc 0 l]
    congr 1
    exact List.flatMap_congr fun c hc => frameBytes_eq_of_ne (ne_of_mem_of_not_mem hc hnofmt) 0 l

/-! ### VERIFY (R760) -/

theorem receivedCrc_frameBytes (s : State) (data : Buffer) (l : Nat) (b : Buffer) :
    receivedCrc s (frameBytes s data l b crcCode) = b := by
  show (if s.crcStaffed then unstuffing s.rule (if s.crcStaffed then stuffing s.rule b else b)
    else (if s.crcStaffed then stuffing s.rule b else b)) = b
  cases s.crcStaffed with
  | true => exact Staffing.unstuffing_stuffing s.rule b
  | false => rfl

/-! ### The lists of a committed configuration -/

/-- COMMIT has let through the codes of the three lists. -/
theorem lists_of_commitFault (h : commitFault s = none) (a : Action) :
    (∀ c ∈ s.fmt.get a, Assigned c) ∧ (∀ c ∈ s.lenList.get a, c = dataCode ∨ c = crcCode ∨ IsConst c) ∧
      (∀ c ∈ s.crcList.get a, c = lenCode ∨ c = dataCode ∨ IsConst c) := by
  obtain ⟨hlists, -⟩ := commitFault_eq_none_iff.mp h
  obtain ⟨hfmt, hlens, hcrcs⟩ := (listFaults_none_iff s).mp (hlists a)
  refine ⟨fun c hc => (assigned_of_codeFault s (hfmt c hc)).1, fun c hc => ?_, fun c hc => ?_⟩
  · obtain ⟨hassigned, hbar⟩ := assigned_of_codeFault s (hlens c hc)
    exact hassigned.resolve_left fun h => hbar (List.mem_singleton.mpr h)
  · obtain ⟨hassigned, hbar⟩ := assigned_of_codeFault s (hcrcs c hc)
    obtain h | h | h | h := hassigned
    · exact .inl h
    · exact .inr (.inl h)
    · exact absurd (List.mem_singleton.mpr h) hbar
    · exact .inr (.inr h)

end

/-! ### The obligations -/

/-- Settles O57. -/
theorem calclenSumsTheCoverageList : Obligations.CalclenSumsTheCoverageList := by
  intro s a hf hc hlist
  rw [exec_of_answer (i := .calclen a) ⟨hf, fun _ => hc⟩ rfl, calcLen_eq hlist]
  split <;> rfl

/-- Settles O58. -/
theorem calccrcCoversTheLogicalBytes : Obligations.CalccrcCoversTheLogicalBytes := by
  intro s a hf hc hlist
  constructor
  · intro hfits
    refine ⟨chk s (coveredBuffer s a s.operands.buf s.operands.lenval), _, ?_,
      exec_issue s (i := .chksum) ⟨hf, fun _ => hc⟩ rfl, rfl⟩
    rw [exec_of_answer (i := .calccrc a) ⟨hf, fun _ => hc⟩ rfl, calcCrc_ok hfits, crcOver_eq hlist]
    rfl
  · intro hmem hover
    rw [exec_of_answer (i := .calccrc a) ⟨hf, fun _ => hc⟩ rfl, calcCrc_error hmem hover]
    rfl

/-- What VERIFY reports of a received checksum. -/
theorem answers_verify {s : State} {a : Action} {data rx : Buffer} {l : Nat} (hf : s.faulted = false)
    (hc : s.committed = true) (hfits : lenCode ∈ s.crcList.get a → l < 2 ^ (8 * s.lenWidth)) :
    s.Answers (.verify a) { buf := data, lenval := l, buf2 := rx }
      { report := some (verifyReport s (crcOver s a data l) rx) } := by
  rw [answers_iff (i := .verify a) s _ ⟨hf, fun _ => hc⟩ rfl, calcCrc_ok hfits]
  rfl

theorem answers_calccrc {s : State} {a : Action} {data : Buffer} {l : Nat} (hf : s.faulted = false)
    (hc : s.committed = true) (hfits : lenCode ∈ s.crcList.get a → l < 2 ^ (8 * s.lenWidth)) :
    s.Answers (.calccrc a) { buf := data, lenval := l } { bytes := some (crcOver s a data l) } := by
  rw [answers_iff (i := .calccrc a) s _ ⟨hf, fun _ => hc⟩ rfl, calcCrc_ok hfits]
  rfl

theorem answers_build {s : State} {a : Action} {t : Template} {data : Buffer} (hf : s.faulted = false)
    (hc : s.committed = true) (ht : s.template.get a = some t) (r : Result) :
    s.Answers (.build a) { buf := data } r ↔
      resultOf ((buildFrame s a data).map fun bs => { bytes := some bs }) = r := by
  rw [answers_iff (i := .build a) s _ ⟨hf, fun _ => hc⟩ rfl, templateAnswer, ht]

/-- Settles O59. -/
theorem buildAndVerifyAgree : Obligations.BuildAndVerifyAgree := by
  refine ⟨fun s a t data l hs hf ht hlen => ?_, fun s a data rx l hf hc => ⟨fun hmem hover => ?_, fun hfits => ?_⟩,
    fun s a t data hs hf ht => ?_⟩
  · have hc := committed_of_template hs ht
    obtain ⟨hfmt, -, -⟩ := lists_of_commitFault (commitFault_of_committed hs hc).1 a
    have hfits : lenCode ∈ s.crcList.get a → l < 2 ^ (8 * s.lenWidth) := fun _ => lt_of_calcLen hlen
    refine ⟨_, crcOver s a data l, ⟨true, "crc", .exactly (.buf (crcOver s a data l)), some (.buf (crcOver s a data l))⟩,
      answers_calccrc hf hc hfits, (answers_build hf hc ht _).mpr (by rw [buildFrame_of_calcLen hfmt hlen]; rfl), rfl,
      ?_, rfl, rfl⟩
    rintro rx rfl
    have hverify := answers_verify (data := data) (rx := frameBytes s data l (crcOver s a data l) crcCode) hf hc hfits
    rw [verifyReport, receivedCrc_frameBytes] at hverify
    simpa using hverify
  · rw [answers_iff (i := .verify a) s _ ⟨hf, fun _ => hc⟩ rfl, calcCrc_error hmem hover]
    rfl
  · refine ⟨_, unstuffing s.rule rx, answers_calccrc hf hc hfits,
      (answers_iff (i := .unstuff) s _ ⟨hf, fun _ => hc⟩ rfl).mpr rfl, ?_⟩
    rintro got rfl
    exact answers_verify hf hc hfits
  · have hc := committed_of_template hs ht
    obtain ⟨hfmt, hlens, -⟩ := lists_of_commitFault (commitFault_of_committed hs hc).1 a
    refine ⟨fun hused hover => ?_, fun hnofmt hnocrc => ⟨_, answers_calccrc hf hc fun h => absurd h hnocrc, ?_⟩⟩
    · have hlen : buildLen s a data = .error .lenOverflow := by
        rw [buildLen, if_pos hused, calcLen_eq hlens, if_neg (Nat.not_lt.mpr hover)]
      rw [answers_build hf hc ht, buildFrame, hlen]
      rfl
    · have hlen : buildLen s a data = .ok 0 := if_neg (not_or.mpr ⟨hnofmt, hnocrc⟩)
      rw [answers_build hf hc ht, buildFrame_eq hfmt hlen fun h => absurd h hnocrc]
      rfl

end Sys2Proof.Proofs.Frames
end

section
/-! PROOFS. Searching, the start phase and SPLITSE (spec/00_scope.md R8; spec/43_delimiter.md R500, R510). `find` gives the
first place a constant stands at (`find_eq_some_iff`), and the phases of a splitter are read off it. -/

namespace Sys2Proof.Proofs.Delimiter

open Sys2Proof.Machine Sys2Proof.Proofs.Commands

/-! ### Searching (R8) -/

theorem findFrom_eq_some_iff (p b : Buffer) (i hi k : Nat) : findFrom p b i hi = some k ↔
    ∃ j, k = i + j ∧ p <+: b.drop j ∧ k + p.length ≤ hi ∧ ∀ m < j, ¬ p <+: b.drop m := by
  induction b generalizing i with
  | nil =>
    simp only [findFrom, List.drop_nil, List.prefix_nil]
    constructor
    · intro h
      split at h <;> cases h
      next hp => exact ⟨0, rfl, hp.2, hp.1, nofun⟩
    · rintro ⟨j, rfl, rfl, hle, hfirst⟩
      obtain rfl : j = 0 := Nat.eq_zero_of_not_pos fun hj => hfirst 0 hj rfl
      simpa using hle
  | cons x b ih =>
    rw [findFrom]
    simp only [List.isPrefixOf_iff_prefix]
    split
    · next hp =>
      obtain ⟨hle, hp⟩ := hp
      constructor
      · rintro ⟨⟩
        exact ⟨0, rfl, hp, hle, nofun⟩
      · rintro ⟨j, rfl, -, -, hfirst⟩
        obtain rfl : j = 0 := Nat.eq_zero_of_not_pos fun hj => hfirst 0 hj hp
        rfl
    · next hp =>
      rw [ih]
      constructor
      · rintro ⟨j, rfl, hj, hle, hfirst⟩
        refine ⟨j + 1, by omega, hj, hle, fun m hm => ?_⟩
        cases m with
        | zero => exact fun h => hp ⟨by omega, h⟩
        | succ m => exact hfirst m (by omega)
      · rintro ⟨j, rfl, hj, hle, hfirst⟩
        cases j with
        | zero => exact absurd ⟨hle, hj⟩ hp
        | succ j => exact ⟨j, by omega, hj, hle, fun m hm => hfirst (m + 1) (by omega)⟩

section
variable {b p : Buffer} {lo hi k : Nat}

/-- `find` gives the first place in its bounds at which the constant stands. -/
theorem find_eq_some_iff : find b p lo hi = some k ↔
    lo ≤ k ∧ k + p.length ≤ hi ∧ p <+: b.drop k ∧ ∀ j, lo ≤ j → j < k → ¬ p <+: b.drop j := by
  rw [find, findFrom_eq_some_iff]
  simp only [List.drop_drop]
  constructor
  · rintro ⟨j, rfl, hj, hle, hfirst⟩
    refine ⟨by omega, hle, hj, fun m hlo hm => ?_⟩
    have hm := hfirst (m - lo) (by omega)
    rwa [Nat.add_sub_cancel' hlo] at hm
  · rintro ⟨hlo, hle, hk, hfirst⟩
    refine ⟨k - lo, by omega, by rwa [Nat.add_sub_cancel' hlo], hle, fun m hm => hfirst (lo + m) (by omega) (by omega)⟩

theorem find_eq_none_iff : find b p lo hi = none ↔ ∀ j, lo ≤ j → j + p.length ≤ hi → ¬ p <+: b.drop j := by
  constructor
  · intro hnone j hlo hle hj
    have hex : ∃ k, lo ≤ k ∧ p <+: b.drop k := ⟨j, hlo, hj⟩
    classical
    obtain ⟨hk, hpk⟩ := Nat.find_spec hex
    have hmin : Nat.find hex ≤ j := Nat.find_min' hex ⟨hlo, hj⟩
    have hsome : find b p lo hi = some (Nat.find hex) :=
      find_eq_some_iff.mpr ⟨hk, by omega, hpk, fun m hm hlt hpm => Nat.find_min hex hlt ⟨hm, hpm⟩⟩
    rw [hnone] at hsome
    cases hsome
  · intro h
    cases hfind : find b p lo hi with
    | none => rfl
    | some k =>
      obtain ⟨hlo, hle, hk, -⟩ := find_eq_some_iff.mp hfind
      exact absurd hk (h k hlo hle)

/-- A constant that stands at j ends the bytes up to its end. -/
theorem suffix_take_iff {j : Nat} (h : j + p.length ≤ b.length) : p <:+ b.take (j + p.length) ↔ p <+: b.drop j := by
  have hlen : (b.take (j + p.length)).length - p.length = j := by rw [List.length_take]; omega
  rw [List.suffix_iff_eq_drop, hlen, List.drop_take, List.prefix_iff_eq_take, Nat.add_sub_cancel_left]

theorem slice_zero (b : Buffer) (n : Nat) : slice b 0 n = b.take n := by simp [slice]

end

/-! ### Splitters and their results (R51, R800) -/

section
variable {s : State} {eos : Bool} {a : Action} {t : Template}

/-- The result record of an exit. -/
def exitResult (e : SplitExit) : Result := resultOf e.toExcept

theorem exec_splitse (hf : s.faulted = false) (hc : s.committed = true) (ht : s.template.get a = some t)
    (hdriven : t.lenDriven = false) :
    exec (.splitse eos a) s = .next (s.ended (exitResult (splitSE t s.maxFrame s.operands.buf eos))) :=
  exec_of_answer ⟨hf, fun _ => hc⟩ (by rw [answer, templateAnswer, ht]; simp [hdriven])

theorem exec_splitlen (hf : s.faulted = false) (hc : s.committed = true) (ht : s.template.get a = some t)
    (hdriven : t.lenDriven = true) :
    exec (.splitlen eos a) s = .next (s.ended (exitResult (splitLen s t s.operands.buf eos))) :=
  exec_of_answer ⟨hf, fun _ => hc⟩ (by rw [answer, templateAnswer, ht]; simp [hdriven])

/-! ### The start phase (R500) -/

/-- An outcome of the start phase is the splitter's. -/
theorem exec_splitOf_of_startPhase {o : SplitOutcome} (hf : s.faulted = false) (hc : s.committed = true)
    (ht : s.template.get a = some t) (h : startPhase t.start s.operands.buf eos = some o) :
    exec (splitOf t eos a) s = .next (s.ended o.result) := by
  unfold splitOf
  split
  · next hdriven => rw [exec_splitlen hf hc ht hdriven, splitLen, h]; rfl
  · next hdriven => rw [exec_splitse hf hc ht (by simpa using hdriven), splitSE, h]; rfl

end

section
variable {start buf : Buffer} {eos : Bool}

theorem startPhase_nil : startPhase start [] eos = some (if eos then .exhausted else .need) := rfl

theorem startPhase_of_none (hne : buf ≠ []) (h : ∀ j, ¬ start <+: buf.drop j) : startPhase start buf eos =
    some (if eos then .discard buf.length
      else if start.length < buf.length then .discard (buf.length - start.length) else .need) := by
  have hfind : find buf start 0 buf.length = none := find_eq_none_iff.mpr fun j _ _ => h j
  rw [startPhase, if_neg (by simpa using hne), hfind]
  dsimp only
  rw [apply_ite some, apply_ite some]

theorem length_le_of_prefix_drop {p b : Buffer} {i : Nat} (hp : p ≠ []) (h : p <+: b.drop i) :
    i + p.length ≤ b.length := by
  have hle := h.length_le
  have hpos := List.length_pos_iff.mpr hp
  rw [List.length_drop] at hle
  omega

theorem startPhase_of_first {i : Nat} (hstart : start ≠ []) (hi : start <+: buf.drop i)
    (hfirst : ∀ j, j < i → ¬ start <+: buf.drop j) :
    startPhase start buf eos = if 0 < i then some (.discard i) else none := by
  have hle := length_le_of_prefix_drop hstart hi
  have hpos := List.length_pos_iff.mpr hstart
  have hfind : find buf start 0 buf.length = some i :=
    find_eq_some_iff.mpr ⟨Nat.zero_le i, hle, hi, fun j _ => hfirst j⟩
  rw [startPhase, if_neg (by omega), hfind]

/-- The strategy takes over when the start constant is at index 0. -/
theorem startPhase_of_prefix (hstart : start ≠ []) (h : start <+: buf) : startPhase start buf eos = none :=
  startPhase_of_first hstart (i := 0) h nofun

end

/-! ### SPLITSE (R510) -/

section
variable {t : Template} {m n : Nat} {buf : Buffer} {eos : Bool}

theorem endsAt_iff {j : Nat} (h : j + t.endConst.length ≤ buf.length) :
    EndsAt t buf (j + t.endConst.length) ↔ t.start.length ≤ j ∧ t.endConst <+: buf.drop j := by
  rw [EndsAt, suffix_take_iff h]
  constructor
  · rintro ⟨hle, -, hend⟩
    exact ⟨by omega, hend⟩
  · rintro ⟨hle, hend⟩
    exact ⟨by omega, h, hend⟩

theorem exists_of_endsAt (h : EndsAt t buf n) : ∃ j, n = j + t.endConst.length := by
  obtain ⟨hle, -, -⟩ := h
  exact ⟨n - t.endConst.length, by omega⟩

/-- The end constant that SPLITSE cuts at. -/
theorem seekEnd_of_endsAt (hend : EndsAt t buf n) (hn : n ≤ m) (hfirst : ∀ k, k < n → ¬ EndsAt t buf k) :
    seekEnd t m buf eos = .outcome (.frame n (buf.take n) (finalFlag eos n buf)) := by
  obtain ⟨j, rfl⟩ := exists_of_endsAt hend
  have hle : j + t.endConst.length ≤ buf.length := hend.2.1
  obtain ⟨hstart, hj⟩ := (endsAt_iff hle).mp hend
  have hfind : find buf t.endConst t.start.length (min buf.length m) = some j := by
    refine find_eq_some_iff.mpr ⟨hstart, le_min hle hn, hj, fun i hi hij hp => ?_⟩
    exact hfirst (i + t.endConst.length) (by omega) ((endsAt_iff (by omega)).mpr ⟨hi, hp⟩)
  rw [seekEnd, hfind]
  simp only [slice_zero]

theorem seekEnd_of_none (hnone : ∀ n, n ≤ m → ¬ EndsAt t buf n) : seekEnd t m buf eos =
    if m ≤ buf.length then .outcome (.discard 1) else if eos then .raise .eosIncomplete else .outcome .need := by
  have hfind : find buf t.endConst t.start.length (min buf.length m) = none := by
    refine find_eq_none_iff.mpr fun j hj hle hp => ?_
    obtain ⟨hbuf, hm⟩ := le_min_iff.mp hle
    exact hnone _ hm ((endsAt_iff hbuf).mpr ⟨hj, hp⟩)
  rw [seekEnd, hfind]

end

/-! ### The obligations -/

/-- Settles O41: each clause is a case of the start phase. -/
theorem splittersFindTheStart : Obligations.SplittersFindTheStart := by
  intro s eos a t hf hc ht hstart
  refine ⟨fun hnil => ?_, fun hne hnone => ?_, fun i hi hfound hfirst => ?_⟩
  · rw [exec_splitOf_of_startPhase hf hc ht (by rw [hnil, startPhase_nil])]
    cases eos <;> rfl
  · rw [exec_splitOf_of_startPhase hf hc ht (startPhase_of_none hne hnone)]
    cases eos with
    | true => rfl
    | false =>
      by_cases hlt : t.start.length < s.operands.buf.length
      · simp [hlt, SplitOutcome.result]
      · simp [hlt, SplitOutcome.result, Nat.sub_eq_zero_of_le (Nat.not_lt.mp hlt)]
  · exact exec_splitOf_of_startPhase hf hc ht ((startPhase_of_first hstart hfound hfirst).trans (if_pos hi))

/-- Settles O42. -/
theorem splitseCutsAtTheEndConstant : Obligations.SplitseCutsAtTheEndConstant := by
  rintro s eos a t buf hf hc ht hdriven hstart hprefix rfl
  rw [exec_splitse hf hc ht hdriven, splitSE, startPhase_of_prefix hstart hprefix]
  refine ⟨fun n hend hn hfirst => ?_, fun hnone => ?_⟩
  · simp only [seekEnd_of_endsAt hend hn hfirst]
    rfl
  · simp only [seekEnd_of_none hnone]
    split
    · rfl
    · split <;> rfl

end Sys2Proof.Proofs.Delimiter
end

section
/-! PROOFS. SPLITLEN (spec/43_delimiter.md R520; spec/44_staffing.md R605). SPLITLEN passes parts one after the other, each a
number of bytes, staffed or not (`SplitCtx.passField`); `partEnd` says where each ends by the units of the buffer. -/

namespace Sys2Proof.Proofs.LengthField

open Sys2Proof.Machine Sys2Proof.Proofs.Delimiter

/-! ### Units (R602, R605) -/

section
variable {r : StaffRule} {b : Byte} {bs : Buffer}

theorem units_of_escaped (h : r.has b = true) : units r (b :: r.esc :: bs) = [b, r.esc] :: units r bs := if_pos ⟨h, rfl⟩

theorem units_of_not_escaped (h : ¬ (r.has b = true ∧ bs.head? = some r.esc)) :
    units r (b :: bs) = [b] :: units r bs := by
  cases bs with
  | nil => rfl
  | cons e bs => exact if_neg fun he => h ⟨he.1, congrArg some he.2⟩

/-- The first unit begins with the first byte. -/
theorem exists_units_cons (r : StaffRule) (b : Byte) (bs : Buffer) : ∃ u us, units r (b :: bs) = (b :: u) :: us := by
  cases bs with
  | nil => exact ⟨[], [], rfl⟩
  | cons e bs =>
    rw [units]
    split
    · exact ⟨[e], _, rfl⟩
    · exact ⟨[], _, rfl⟩

theorem units_ne_nil (r : StaffRule) (b : Byte) (bs : Buffer) : units r (b :: bs) ≠ [] := by
  obtain ⟨u, us, h⟩ := exists_units_cons r b bs
  simp [h]

end

/-! ### Staffed fields by units (R520, R605) -/

section
variable (x : SplitCtx)

theorem missing_of_le {x : SplitCtx} {idx : Nat} (h : x.max ≤ idx) : x.missing idx = .outcome (.discard x.startLen) :=
  if_pos h

theorem missing_need {x : SplitCtx} {idx : Nat} (h : idx < x.max) (heos : x.eos = false) :
    x.missing idx = .outcome .need := by
  rw [SplitCtx.missing, if_neg (Nat.not_le.mpr h), if_neg (by simp [heos])]

theorem missing_min (k : Nat) : x.missing (min k x.max) = x.missing k := by
  by_cases h : x.max ≤ k
  · rw [missing_of_le h, missing_of_le (le_min h le_rfl)]
  · rw [Nat.min_eq_left (Nat.le_of_not_le h)]

end

section
variable {s : State} {r : StaffRule} {eos : Bool} {buf : Buffer} {n : Nat} {u : Buffer} {us : List Buffer}

/-- Whether a field of more than one byte is there does not depend on its first unit. -/
theorem unfinished_cons (hn : n ≠ 0) : Unfinished s r eos buf (n + 1) (u :: us) ↔ Unfinished s r eos buf n us := by
  have hlast : us.length = n → (u :: us).getLast? = us.getLast? := by
    intro hlen
    obtain ⟨v, us, rfl⟩ := List.exists_cons_of_ne_nil (List.ne_nil_of_length_pos (by omega : 0 < us.length))
    rw [List.getLast?_cons_cons]
  simp only [Unfinished, List.length_cons, Nat.add_lt_add_iff_right, Nat.add_right_cancel_iff]
  refine or_congr_right (and_congr_right fun hlen => ?_)
  rw [hlast hlen]

/-- A field of one byte is there when its unit is no pattern byte alone at the end of the buffer. -/
theorem not_unfinished_one (h : us = [] → buf.length < s.maxFrame → eos = false → ∀ b, u = [b] → r.has b = false) :
    ¬ Unfinished s r eos buf 1 (u :: us) := by
  rintro (hlt | ⟨hlen, hmax, heos, v, hv, b, rfl, hb⟩)
  · simp at hlt
  · have hnil : us = [] := by simpa using hlen
    rw [hnil] at hv
    obtain rfl : u = [b] := by simpa using hv
    exact Bool.noConfusion (hb.symm.trans (h hnil hmax heos b rfl))

end

section
variable {s : State} {t : Template} {eos : Bool} {buf : Buffer}

/-- What a staffed field reads, by the units of the bytes within M from its place on. -/
def unitsField (s : State) (t : Template) (eos : Bool) (buf : Buffer) (r : StaffRule) (n pos : Nat) (us : List Buffer) :
    Except SplitExit (Buffer × Nat) :=
  if n ≠ 0 ∧ Unfinished s r eos buf n us then .error ((splitCtx s t buf eos).missing buf.length)
  else .ok ((us.take n).flatMap (·.take 1), pos + (us.take n).flatten.length)

variable {r : StaffRule} {n pos : Nat} {us : List Buffer}

theorem unitsField_zero : unitsField s t eos buf r 0 pos us = .ok ([], pos) := by simp [unitsField]

theorem unitsField_nil (hn : n ≠ 0) :
    unitsField s t eos buf r n pos [] = .error ((splitCtx s t buf eos).missing buf.length) :=
  if_pos ⟨hn, .inl (Nat.pos_of_ne_zero hn)⟩

/-- The first unit is read and the rest of the field behind it. -/
theorem unitsField_cons {b : Byte} {u : Buffer} (hu : ¬ Unfinished s r eos buf 1 ((b :: u) :: us)) :
    unitsField s t eos buf r (n + 1) pos ((b :: u) :: us) =
      consField b (unitsField s t eos buf r n (pos + (b :: u).length) us) := by
  by_cases hn : n = 0
  · subst hn
    rw [unitsField_zero, unitsField, if_neg fun h => hu h.2]
    simp [consField]
  · have hcons := unfinished_cons (s := s) (r := r) (eos := eos) (buf := buf) (u := b :: u) (us := us) hn
    unfold unitsField
    by_cases h : Unfinished s r eos buf n us
    · rw [if_pos ⟨Nat.succ_ne_zero n, hcons.mpr h⟩, if_pos ⟨hn, h⟩]
      rfl
    · rw [if_neg fun hboth => h (hcons.mp hboth.2), if_neg fun hboth => h hboth.2, consField]
      simp [Nat.add_assoc, Nat.add_comm 1]

/-- A staffed field reads the units one after the other. -/
theorem staffedField_eq_units (l : Buffer) (n pos : Nat) (hpos : pos + l.length = buf.length) :
    (splitCtx s t buf eos).staffedField r l n pos =
      unitsField s t eos buf r n pos (units r (l.take (s.maxFrame - pos))) := by
  generalize hx : splitCtx s t buf eos = x
  have hmax : x.max = s.maxFrame := by rw [← hx]; rfl
  have heos : x.eos = eos := by rw [← hx]; rfl
  have htake (b : Byte) (l : Buffer) {k : Nat} (hk : k < x.max) :
      (b :: l).take (s.maxFrame - k) = b :: l.take (s.maxFrame - (k + 1)) := by
    rw [← hmax, ← Nat.sub_add_cancel (Nat.sub_pos_of_lt hk), List.take_succ_cons, Nat.sub_sub]
  have hlast {b : Byte} {k : Nat} (hk : k + 1 = buf.length)
      (hneed : ¬ (r.has b = true ∧ k + 1 < x.max ∧ x.eos = false)) : ¬ Unfinished s r eos buf 1 [[b]] := by
    refine not_unfinished_one fun _ hroom hneos c hc => ?_
    cases hc
    exact Bool.eq_false_iff.mpr fun hb => hneed ⟨hb, by rwa [hmax, hk], heos.trans hneos⟩
  fun_induction SplitCtx.staffedField x r l n pos with
  | case1 | case3 | case8 => simp_all [unitsField_zero]
  | case2 n pos hn =>
    rw [List.take_nil, units, unitsField_nil hn, hx, ← hpos]
    rfl
  | case4 b n pos hn hle | case9 b e bs n pos hn hle =>
    rw [← hmax, Nat.sub_eq_zero_of_le hle, List.take_zero, units, unitsField_nil hn, hx, missing_of_le hle,
      missing_of_le (by omega)]
  | case5 b n pos hn hlt hneed =>
    obtain ⟨hb, hroom, hneos⟩ := hneed
    have hunfinished : Unfinished s r eos buf n [[b]] := by
      by_cases hone : n = 1
      · exact .inr ⟨hone.symm, by rw [← hpos, ← hmax]; exact hroom, heos ▸ hneos, [b], rfl, b, rfl, hb⟩
      · exact .inl (show 1 < n by omega)
    rw [htake b [] (Nat.lt_of_not_le hlt), List.take_nil, units, unitsField, if_pos ⟨hn, hunfinished⟩, hx, ← hpos]
    exact congrArg Except.error (missing_need hroom hneos).symm
  | case6 b pos hlt hneed =>
    rw [htake b [] (Nat.lt_of_not_le hlt), List.take_nil, units, unitsField_cons (hlast hpos hneed), unitsField_zero]
    rfl
  | case7 b n pos hn hlt hneed hone =>
    obtain ⟨m, rfl⟩ := Nat.exists_eq_succ_of_ne_zero hn
    rw [htake b [] (Nat.lt_of_not_le hlt), List.take_nil, units, unitsField_cons (hlast hpos hneed),
      unitsField_nil (fun h => hone (congrArg Nat.succ h)), hx, ← hpos]
    rfl
  | case10 b e bs n pos hn hlt hesc ih =>
    obtain ⟨hb, hroom, rfl⟩ := hesc
    obtain ⟨m, rfl⟩ := Nat.exists_eq_succ_of_ne_zero hn
    rw [htake b _ (Nat.lt_of_not_le hlt), htake r.esc _ hroom, units_of_escaped hb,
      unitsField_cons (not_unfinished_one fun _ _ _ c hc => by simp at hc), ih (by simp only [List.length_cons] at hpos; omega)]
    rfl
  | case11 b e bs n pos hn hlt hesc ih =>
    obtain ⟨m, rfl⟩ := Nat.exists_eq_succ_of_ne_zero hn
    have hkept : ¬ (r.has b = true ∧ ((e :: bs).take (s.maxFrame - (pos + 1))).head? = some r.esc) := by
      rintro ⟨hb, he⟩
      by_cases hroom : pos + 1 < x.max
      · rw [htake e bs hroom, List.head?_cons] at he
        exact hesc ⟨hb, hroom, Option.some.inj he⟩
      · rw [← hmax, Nat.sub_eq_zero_of_le (Nat.le_of_not_lt hroom), List.take_zero] at he
        cases he
    have hfirst : units r ((e :: bs).take (s.maxFrame - (pos + 1))) = [] → buf.length < s.maxFrame → eos = false →
        ∀ c, [b] = [c] → r.has c = false := by
      intro hnil hroom
      rw [htake e bs (by simp only [List.length_cons] at hpos; omega)] at hnil
      exact absurd hnil (units_ne_nil r e _)
    rw [htake b _ (Nat.lt_of_not_le hlt), units_of_not_escaped hkept, unitsField_cons (not_unfinished_one hfirst),
      ih (by simp only [List.length_cons] at hpos ⊢; omega)]
    rfl

/-! ### Parts (R520) -/

theorem exitResult_missing (k : Nat) : exitResult ((splitCtx s t buf eos).missing k) = lacking s t eos (k + 1) := by
  by_cases h : s.maxFrame ≤ k
  · rw [missing_of_le (x := splitCtx s t buf eos) h, lacking, if_pos (Nat.lt_succ_of_le h)]
    rfl
  · rw [SplitCtx.missing, if_neg (show ¬ (splitCtx s t buf eos).max ≤ k from h), lacking,
      if_neg fun hlt => h (Nat.le_of_lt_succ hlt)]
    cases eos <;> rfl

/-- Bytes that are not staffed are there when the buffer and M hold them. -/
theorem skip_eq (n pos : Nat) : (splitCtx s t buf eos).skip n pos =
    if n = 0 ∨ pos + n ≤ min buf.length s.maxFrame then .ok (pos + n)
    else .error ((splitCtx s t buf eos).missing (pos + n - 1)) := by
  have hmax : (splitCtx s t buf eos).max = s.maxFrame := rfl
  have hbuf : (splitCtx s t buf eos).buf = buf := rfl
  by_cases hn : n = 0
  · subst hn
    rfl
  · rw [SplitCtx.skip, if_neg hn, SplitCtx.require, hmax, hbuf]
    by_cases hle : pos + n ≤ min buf.length s.maxFrame
    · rw [if_pos (by omega), if_pos (.inr hle)]
    · rw [if_neg (by omega), if_neg (not_or.mpr ⟨hn, hle⟩)]

/-- The logical bytes of a part. -/
def partBytes (s : State) (buf : Buffer) (n : Nat) (staffed : Bool) (pos : Nat) : Buffer :=
  match (if staffed then s.rule else none) with
  | none => (buf.drop pos).take n
  | some r => ((unitsFrom s r buf pos).take n).flatMap (·.take 1)

theorem lengthField_eq (s : State) (buf : Buffer) (pos : Nat) :
    lengthField s buf pos = partBytes s buf s.lenWidth s.lenStaffed pos := rfl

theorem field_plain {staffed : Bool} (h : (if staffed then s.rule else none) = none) (n pos : Nat) :
    (splitCtx s t buf eos).field n staffed pos =
      if n = 0 ∨ pos + n ≤ min buf.length s.maxFrame then .ok ((buf.drop pos).take n, pos + n)
      else .error ((splitCtx s t buf eos).missing (pos + n - 1)) := by
  have hfield : (splitCtx s t buf eos).field n staffed pos =
      match (splitCtx s t buf eos).skip n pos with
      | .ok p => .ok (slice buf pos p, p)
      | .error e => .error e := by
    have hrule : (splitCtx s t buf eos).rule = s.rule := rfl
    unfold SplitCtx.field
    cases staffed with
    | false => rfl
    | true =>
      rw [hrule, show s.rule = none from h]
      rfl
  have hslice : slice buf pos (pos + n) = (buf.drop pos).take n := by rw [slice, Nat.add_sub_cancel_left]
  rw [hfield, skip_eq]
  by_cases hle : n = 0 ∨ pos + n ≤ min buf.length s.maxFrame
  · rw [if_pos hle, if_pos hle, ← hslice]
  · rw [if_neg hle, if_neg hle]

theorem field_staffed_eq {staffed : Bool} {r : StaffRule} (h : (if staffed then s.rule else none) = some r)
    (n pos : Nat) : (splitCtx s t buf eos).field n staffed pos =
      (splitCtx s t buf eos).staffedField r (buf.drop pos) n pos := by
  obtain ⟨rfl, hrule⟩ : staffed = true ∧ s.rule = some r := by cases staffed <;> simp_all
  unfold SplitCtx.field
  rw [show (splitCtx s t buf eos).rule = some r from hrule]
  rfl

theorem field_staffed {staffed : Bool} {r : StaffRule} (h : (if staffed then s.rule else none) = some r) {n pos : Nat}
    (hpos : pos ≤ buf.length) : (splitCtx s t buf eos).field n staffed pos =
      unitsField s t eos buf r n pos (unitsFrom s r buf pos) := by
  rw [field_staffed_eq h, staffedField_eq_units _ _ _ (by rw [List.length_drop]; omega), unitsFrom, List.drop_take]

/-- A part ends where `partEnd` says, and gives its logical bytes. -/
theorem field_eq {n pos : Nat} (staffed : Bool) (hpos : pos ≤ buf.length) :
    ((splitCtx s t buf eos).field n staffed pos).mapError exitResult =
      (partEnd s t eos buf n staffed pos).map fun p => (partBytes s buf n staffed pos, p) := by
  unfold partEnd partBytes
  cases h : (if staffed then s.rule else none) with
  | none =>
    rw [field_plain h]
    dsimp only
    split
    · rfl
    · next hno =>
      obtain ⟨hn, -⟩ := not_or.mp hno
      have hlack := exitResult_missing (s := s) (t := t) (eos := eos) (buf := buf) (pos + n - 1)
      rw [Nat.sub_add_cancel (by omega)] at hlack
      exact congrArg Except.error hlack
  | some r =>
    rw [field_staffed h hpos, unitsField]
    dsimp only
    split
    · rw [← missing_min]
      exact congrArg Except.error (exitResult_missing _)
    · rfl

theorem passField_eq {n pos : Nat} (staffed : Bool) (hpos : pos ≤ buf.length) :
    ((splitCtx s t buf eos).passField n staffed pos).mapError exitResult = partEnd s t eos buf n staffed pos := by
  have hfield := field_eq (s := s) (t := t) (eos := eos) (n := n) staffed hpos
  unfold SplitCtx.passField
  cases h : (splitCtx s t buf eos).field n staffed pos with
  | ok y =>
    rw [h] at hfield
    cases hpart : partEnd s t eos buf n staffed pos <;> rw [hpart] at hfield <;> cases hfield
    rfl
  | error e =>
    rw [h] at hfield
    cases hpart : partEnd s t eos buf n staffed pos <;> rw [hpart] at hfield <;> cases hfield
    rfl

/-! ### Where parts end -/

theorem units_flatten (r : StaffRule) (w : Buffer) : (units r w).flatten = w := by
  fun_induction units r w <;> simp_all

/-- A part ends no earlier than it begins, and, unless it is empty, within the buffer and M. -/
theorem bounds_of_partEnd {n pos p : Nat} {staffed : Bool} (h : partEnd s t eos buf n staffed pos = .ok p) :
    pos ≤ p ∧ (p = pos ∨ p ≤ min buf.length s.maxFrame) := by
  unfold partEnd at h
  split at h
  · split at h <;> cases h
    next hle => omega
  · next r _ =>
    dsimp only at h
    split at h <;> cases h
    have hle : ((unitsFrom s r buf pos).take n).flatten.length ≤ min s.maxFrame buf.length - pos := by
      calc ((unitsFrom s r buf pos).take n).flatten.length
          ≤ (unitsFrom s r buf pos).flatten.length := by
            conv_rhs => rw [← List.take_append_drop n (unitsFrom s r buf pos), List.flatten_append, List.length_append]
            exact Nat.le_add_right _ _
        _ = min s.maxFrame buf.length - pos := by
            rw [unitsFrom, units_flatten, List.length_drop, List.length_take]
    omega

/-- A part that does not end is lacking. -/
theorem lacking_of_partEnd {n pos : Nat} {staffed : Bool} {e : Result} (h : partEnd s t eos buf n staffed pos = .error e) :
    ∃ m, e = lacking s t eos m := by
  unfold partEnd at h
  split at h
  · split at h <;> cases h
    exact ⟨_, rfl⟩
  · dsimp only at h
    split at h <;> cases h
    exact ⟨_, rfl⟩

theorem bounds_of_partsEnd {ps : List (Nat × Bool)} {pos p : Nat} (h : partsEnd s t eos buf ps pos = .ok p) :
    pos ≤ p ∧ (p = pos ∨ p ≤ min buf.length s.maxFrame) := by
  induction ps generalizing pos with
  | nil => cases h; exact ⟨le_rfl, .inl rfl⟩
  | cons q ps ih =>
    rw [partsEnd] at h
    split at h
    · next pos' hpart =>
      obtain ⟨hle, hbound⟩ := bounds_of_partEnd hpart
      obtain ⟨hle', hbound'⟩ := ih h
      omega
    · cases h

theorem lacking_of_partsEnd {ps : List (Nat × Bool)} {pos : Nat} {e : Result}
    (h : partsEnd s t eos buf ps pos = .error e) : ∃ m, e = lacking s t eos m := by
  induction ps generalizing pos with
  | nil => cases h
  | cons q ps ih =>
    rw [partsEnd] at h
    split at h
    · exact ih h
    · next hpart =>
      cases h
      exact lacking_of_partEnd hpart

/-! ### The frame (R520) -/

theorem passField_false (x : SplitCtx) (n pos : Nat) : x.passField n false pos = x.skip n pos := by
  unfold SplitCtx.passField SplitCtx.field
  cases x.skip n pos <;> rfl

/-- The covered span is a part that is staffed unless the length counts wire bytes. -/
theorem span_eq (countsWire : Bool) (n pos : Nat) :
    (splitCtx s t buf eos).span countsWire n pos = (splitCtx s t buf eos).passField n (!countsWire) pos := by
  unfold SplitCtx.span
  cases countsWire with
  | true => exact (passField_false _ n pos).symm
  | false =>
    cases h : (splitCtx s t buf eos).rule with
    | some r => rfl
    | none =>
      have hfield := field_plain (s := s) (t := t) (buf := buf) (eos := eos) (staffed := true) h n pos
      have hskip := skip_eq (s := s) (t := t) (buf := buf) (eos := eos) n pos
      simp only [Bool.false_or, Option.isNone_none, if_true, Bool.not_false, SplitCtx.passField, hfield, hskip]
      split <;> rfl

theorem suffixToken_eq (k : SuffixToken) (pos : Nat) : (splitCtx s t buf eos).suffixToken s pos k =
    (splitCtx s t buf eos).passField (suffixPart s k).1 (suffixPart s k).2 pos := by
  cases k with
  | data => exact (passField_false _ 0 pos).symm
  | crc => rfl
  | const k => exact (passField_false _ _ pos).symm

/-- A part's end is within the buffer. -/
theorem passField_le {n pos p : Nat} {staffed : Bool} (hpos : pos ≤ buf.length)
    (h : (splitCtx s t buf eos).passField n staffed pos = .ok p) : p ≤ buf.length := by
  have heq := passField_eq (s := s) (t := t) (eos := eos) (n := n) staffed hpos
  rw [h] at heq
  have hbounds := bounds_of_partEnd heq.symm
  omega

theorem suffix_eq (ks : List SuffixToken) {pos : Nat} (hpos : pos ≤ buf.length) :
    ((splitCtx s t buf eos).suffix s ks pos).mapError exitResult = partsEnd s t eos buf (ks.map (suffixPart s)) pos := by
  induction ks generalizing pos with
  | nil => rfl
  | cons k ks ih =>
    rw [SplitCtx.suffix, suffixToken_eq, List.map_cons, partsEnd, ← passField_eq _ hpos]
    cases h : (splitCtx s t buf eos).passField (suffixPart s k).1 (suffixPart s k).2 pos with
    | ok p => exact ih (passField_le hpos h)
    | error e => rfl

/-- SPLITLEN measures the frame that `frameEnd` says. -/
theorem frameLength_eq (hstart : t.start.length ≤ buf.length) :
    ((splitCtx s t buf eos).frameLength s t).mapError exitResult = frameEnd s t eos buf := by
  have hfield := field_eq (s := s) (t := t) (eos := eos) (n := s.lenWidth) s.lenStaffed hstart
  rw [SplitCtx.frameLength, frameEnd, lengthField_eq, show (splitCtx s t buf eos).startLen = t.start.length from rfl]
  cases hpart : partEnd s t eos buf s.lenWidth s.lenStaffed t.start.length with
  | error e =>
    rw [hpart] at hfield
    cases h : (splitCtx s t buf eos).field s.lenWidth s.lenStaffed t.start.length <;> rw [h] at hfield <;> cases hfield
    rfl
  | ok pos =>
    have hpos : pos ≤ buf.length := by
      have hbounds := bounds_of_partEnd hpart
      omega
    rw [hpart] at hfield
    cases h : (splitCtx s t buf eos).field s.lenWidth s.lenStaffed t.start.length <;> rw [h] at hfield <;> cases hfield
    dsimp only
    rw [partsEnd, ← passField_eq _ hpos, span_eq]
    cases hspan : (splitCtx s t buf eos).passField _ (!s.lenCountsWire) pos with
    | error e => rfl
    | ok p => exact suffix_eq t.suffix (passField_le hpos hspan)

end

end Sys2Proof.Proofs.LengthField
end

section
/-! PROOFS. The frames of SPLITLEN (spec/43_delimiter.md R520, R521): `frameEnd` decides, and without a staffing rule the
parts are so many bytes each, of which the first that the buffer or M does not hold decides. -/

namespace Sys2Proof.Proofs.LengthFrames

open Sys2Proof.Machine Sys2Proof.Proofs.Commands Sys2Proof.Proofs.Delimiter Sys2Proof.Proofs.LengthField

section
variable {s : State} {t : Template} {eos : Bool} {buf : Buffer}

/-! ### The result record (R51, R520) -/

/-- A frame of n bytes, as a result record. -/
def frameRecord (eos : Bool) (buf : Buffer) (n : Nat) : Result :=
  { adv := some n, frame := some (some (buf.take n)), isFinal := some (eos && n = buf.length) }

/-- What SPLITLEN ends with once the start constant is at index 0. -/
def lengthResult (s : State) (t : Template) (eos : Bool) (buf : Buffer) : Result :=
  match frameEnd s t eos buf with
  | .ok n => frameRecord eos buf n
  | .error r => r

theorem exitResult_frame (n : Nat) :
    exitResult (.outcome (.frame n (slice buf 0 n) (finalFlag eos n buf))) = frameRecord eos buf n := by
  rw [slice_zero]
  rfl

theorem exitResult_seekLength (h : t.start.length ≤ buf.length) :
    exitResult (seekLength s t buf eos) = lengthResult s t eos buf := by
  rw [lengthResult, ← frameLength_eq h, seekLength]
  cases (splitCtx s t buf eos).frameLength s t with
  | ok n => exact exitResult_frame n
  | error e => rfl

theorem exec_splitlen_of_prefix {a : Action} (hf : s.faulted = false) (hc : s.committed = true)
    (ht : s.template.get a = some t) (hdriven : t.lenDriven = true) (hstart : t.start ≠ [])
    (h : t.start <+: s.operands.buf) :
    exec (.splitlen eos a) s = .next (s.ended (lengthResult s t eos s.operands.buf)) := by
  rw [exec_splitlen hf hc ht hdriven, splitLen, startPhase_of_prefix hstart h]
  simp only [exitResult_seekLength h.length_le]

/-! ### Parts without a staffing rule (R521) -/

/-- The bytes of the parts, one behind the other. -/
def partsLength (ps : List (Nat × Bool)) : Nat := (ps.map (·.1)).sum

theorem frameEnd_eq_partsEnd (s : State) (t : Template) (eos : Bool) (buf : Buffer) : frameEnd s t eos buf =
    partsEnd s t eos buf ((s.lenWidth, s.lenStaffed) ::
      (uintOf s.lord (lengthField s buf t.start.length), !s.lenCountsWire) :: t.suffix.map (suffixPart s))
      t.start.length := by
  rw [frameEnd, partsEnd]
  cases partEnd s t eos buf s.lenWidth s.lenStaffed t.start.length <;> rfl

theorem partsEnd_append (ps qs : List (Nat × Bool)) (pos : Nat) : partsEnd s t eos buf (ps ++ qs) pos =
    match partsEnd s t eos buf ps pos with
    | .ok p => partsEnd s t eos buf qs p
    | .error e => .error e := by
  induction ps generalizing pos with
  | nil => rfl
  | cons p ps ih =>
    rw [List.cons_append, partsEnd, partsEnd]
    cases partEnd s t eos buf p.1 p.2 pos with
    | ok q => exact ih q
    | error e => rfl

variable {pos : Nat} {ps : List (Nat × Bool)} {p : Nat × Bool}

theorem partEnd_plain (hrule : s.rule = none) (n : Nat) (staffed : Bool) (pos : Nat) :
    partEnd s t eos buf n staffed pos =
      if n = 0 ∨ pos + n ≤ min buf.length s.maxFrame then .ok (pos + n) else .error (lacking s t eos (pos + n)) := by
  have hnone : (if staffed then s.rule else none) = none := by cases staffed <;> simp [hrule]
  rw [partEnd, hnone]

/-- Parts that the buffer and M hold end behind one another. -/
theorem partsEnd_held (hrule : s.rule = none) (h : pos + partsLength ps ≤ min buf.length s.maxFrame) :
    partsEnd s t eos buf ps pos = .ok (pos + partsLength ps) := by
  induction ps generalizing pos with
  | nil => rfl
  | cons p ps ih =>
    simp only [partsLength, List.map_cons, List.sum_cons, ← Nat.add_assoc] at h ⊢
    rw [partsEnd, partEnd_plain hrule, if_pos (.inr (by omega))]
    exact ih h

/-- The first part that they do not hold decides. -/
theorem partsEnd_lacking (hrule : s.rule = none) {ps : List (Nat × Bool)} (qs : List (Nat × Bool))
    (hheld : ps = [] ∨ pos + partsLength ps ≤ min buf.length s.maxFrame) (hp : p.1 ≠ 0)
    (hlack : min buf.length s.maxFrame < pos + partsLength ps + p.1) :
    partsEnd s t eos buf (ps ++ p :: qs) pos = .error (lacking s t eos (pos + partsLength ps + p.1)) := by
  have hps : partsEnd s t eos buf ps pos = .ok (pos + partsLength ps) := by
    obtain rfl | hheld := hheld
    · rfl
    · exact partsEnd_held hrule hheld
  rw [partsEnd_append, hps]
  dsimp only
  rw [partsEnd, partEnd_plain hrule, if_neg (by omega)]

/-- Parts that are not all held have such a first part. -/
theorem exists_lacking (hpos : pos ≤ min buf.length s.maxFrame) (h : min buf.length s.maxFrame < pos + partsLength ps) :
    ∃ done p more, ps = done ++ p :: more ∧ pos + partsLength done ≤ min buf.length s.maxFrame ∧
      min buf.length s.maxFrame < pos + partsLength done + p.1 := by
  induction ps generalizing pos with
  | nil => exact absurd h (Nat.not_lt.mpr hpos)
  | cons p ps ih =>
    simp only [partsLength, List.map_cons, List.sum_cons, ← Nat.add_assoc] at h
    by_cases hheld : pos + p.1 ≤ min buf.length s.maxFrame
    · obtain ⟨done, q, more, rfl, hdone, hq⟩ := ih hheld h
      refine ⟨p :: done, q, more, rfl, ?_, ?_⟩
      · simpa [partsLength, Nat.add_assoc] using hdone
      · simpa [partsLength, Nat.add_assoc] using hq
    · exact ⟨[], p, ps, rfl, hpos, Nat.lt_of_not_le hheld⟩

/-- Parts that begin with one of some bytes and are not all held end with what one of them lacks. -/
theorem partsEnd_not_held (hrule : s.rule = none) (hp : p.1 ≠ 0)
    (h : min buf.length s.maxFrame < pos + partsLength (p :: ps)) :
    ∃ m, partsEnd s t eos buf (p :: ps) pos = .error (lacking s t eos m) ∧ min buf.length s.maxFrame < m ∧
      m ≤ pos + partsLength (p :: ps) := by
  by_cases hfirst : pos + p.1 ≤ min buf.length s.maxFrame
  · obtain ⟨done, q, more, heq, hdone, hq⟩ := exists_lacking (by omega : pos ≤ min buf.length s.maxFrame) h
    refine ⟨_, heq ▸ partsEnd_lacking hrule more (.inr hdone) (by omega) hq, hq, ?_⟩
    rw [heq]
    simp only [partsLength, List.map_append, List.map_cons, List.sum_append, List.sum_cons]
    omega
  · refine ⟨_, partsEnd_lacking hrule (ps := []) ps (.inl rfl) hp ?_, ?_, ?_⟩ <;>
      simp [partsLength] <;> omega

end

/-! ### Results without a frame -/

section
variable {s : State} {t : Template} {eos : Bool} {buf : Buffer} {m : Nat}

/-- A byte past M drops the start constant. -/
theorem lacking_past (h : s.maxFrame < m) :
    lacking s t eos m = { adv := some t.start.length, frame := some none, isFinal := some false } :=
  if_pos h

/-- A byte within M may still come. -/
theorem lacking_within (h : m ≤ s.maxFrame) : lacking s t eos m =
    if eos then { status := .eosIncomplete } else { adv := some 0, frame := some none, isFinal := some false } :=
  if_neg (Nat.not_lt.mpr h)

theorem lengthResult_of_ok {n : Nat} (h : frameEnd s t eos buf = .ok n) :
    lengthResult s t eos buf = frameRecord eos buf n := by
  rw [lengthResult, h]

theorem lengthResult_of_error {r : Result} (h : frameEnd s t eos buf = .error r) : lengthResult s t eos buf = r := by
  rw [lengthResult, h]

theorem suffixLength_eq (s : State) (ks : List SuffixToken) :
    partsLength (ks.map (suffixPart s)) = (ks.map (suffixLength s)).sum := by
  rw [partsLength, List.map_map]
  congr 2
  funext k
  cases k <;> rfl

end

/-! ### The obligation -/

/-- Settles O43: `frameEnd` in general; without a rule, the parts it names. -/
theorem splitlenMeasuresTheFrame : Obligations.SplitlenMeasuresTheFrame := by
  refine ⟨?_, ?_, fun s eos a t hf hc ht hdriven hstart _ hprefix =>
    exec_splitlen_of_prefix hf hc ht hdriven hstart hprefix⟩
  · rintro s eos a t lb rest buf l n hf hc ht hdriven hstart - hrule hbuf rfl hlb hne hl hn
    have hprefix : t.start <+: s.operands.buf := ⟨lb ++ rest, by rw [hbuf, List.append_assoc]⟩
    have hwidth : s.lenWidth ≠ 0 := by rw [← hlb]; exact fun h => hne (List.eq_nil_of_length_eq_zero h)
    have hfield : lengthField s s.operands.buf t.start.length = lb := by
      have hnone : (if s.lenStaffed then s.rule else none) = none := by simp [hrule]
      rw [lengthField, hnone, hbuf, List.append_assoc, List.drop_left, ← hlb]
      exact List.take_left
    have hlen : s.operands.buf.length = t.start.length + lb.length + rest.length := by
      rw [hbuf, List.length_append, List.length_append]
    have hparts := frameEnd_eq_partsEnd s t eos s.operands.buf
    rw [hfield] at hparts
    have htotal : t.start.length + partsLength ((s.lenWidth, s.lenStaffed) ::
        (uintOf s.lord lb, !s.lenCountsWire) :: t.suffix.map (suffixPart s)) = n := by
      rw [hn, hl, ← suffixLength_eq, hlb]
      simp only [partsLength, List.map_cons, List.sum_cons]
      omega
    have hlacking (hover : min s.operands.buf.length s.maxFrame < n) :
        ∃ m, frameEnd s t eos s.operands.buf = .error (lacking s t eos m) ∧
          min s.operands.buf.length s.maxFrame < m ∧ m ≤ n := by
      rw [hparts, ← htotal]
      exact partsEnd_not_held hrule hwidth (by rwa [htotal])
    rw [exec_splitlen_of_prefix hf hc ht hdriven hstart hprefix]
    have hend {r : Result} (h : lengthResult s t eos s.operands.buf = r) :
        Host.Outcome.next (s.ended (lengthResult s t eos s.operands.buf)) = (.next (s.ended r) : Out) := by rw [h]
    refine ⟨fun hbuf hmax => hend ?_, fun hbuf hmax => hend ?_, fun hbuf hmax => hend ?_, fun hover => hend ?_,
      fun done k more m hsuffix hm hheld hover => hend ?_⟩
    · rw [lengthResult_of_ok (hparts.trans ((partsEnd_held hrule (by omega)).trans (congrArg Except.ok htotal)))]
      rfl
    · obtain ⟨m, hlack, hm, hmn⟩ := hlacking (by omega)
      rw [lengthResult_of_error hlack, lacking_past (by omega)]
    · obtain ⟨m, hlack, hm, hmn⟩ := hlacking (by omega)
      rw [lengthResult_of_error hlack, lacking_within (by omega)]
    · by_cases hfirst : t.start.length + s.lenWidth ≤ min s.operands.buf.length s.maxFrame
      · have hspan : t.start.length + partsLength [(s.lenWidth, s.lenStaffed)] + uintOf s.lord lb = l := by
          rw [hl, hlb]
          rfl
        rw [lengthResult_of_error (hparts.trans (partsEnd_lacking hrule (ps := [(s.lenWidth, s.lenStaffed)])
          (t.suffix.map (suffixPart s)) (.inr hfirst) (p := (uintOf s.lord lb, !s.lenCountsWire))
          (show uintOf s.lord lb ≠ 0 by omega) (by rw [hspan]; exact hover))), hspan]
      · rw [lengthResult_of_error (hparts.trans (partsEnd_lacking hrule (ps := []) _ (.inl rfl) hwidth
          (Nat.lt_of_not_le hfirst))), lacking_past (by omega), lacking_past (by omega)]
    · have hdone : t.start.length + partsLength ((s.lenWidth, s.lenStaffed) ::
          (uintOf s.lord lb, !s.lenCountsWire) :: done.map (suffixPart s)) = m := by
        rw [hm, hl, ← suffixLength_eq, hlb]
        simp only [partsLength, List.map_cons, List.sum_cons]
        omega
      have hk : (suffixPart s k).1 = suffixLength s k := by cases k <;> rfl
      rw [hsuffix, List.map_append, List.map_append, List.append_assoc, ← List.cons_append, ← List.cons_append] at hparts
      rw [lengthResult_of_error (hparts.trans (partsEnd_lacking hrule _ (.inr (by rwa [hdone])) (by omega)
        (by rwa [hdone, hk]))), hdone, hk]
  · intro s eos a t hf hc ht hdriven hstart hrule hprefix hshort
    have hle := hprefix.length_le
    have hlack := partsEnd_lacking (s := s) (t := t) (eos := eos) (buf := s.operands.buf) (pos := t.start.length) hrule
      (ps := []) (p := (s.lenWidth, s.lenStaffed))
      ((uintOf s.lord (lengthField s s.operands.buf t.start.length), !s.lenCountsWire) :: t.suffix.map (suffixPart s))
      (.inl rfl) (by simp only; omega) (by rw [show partsLength [] = 0 from rfl]; simp only; omega)
    rw [exec_splitlen_of_prefix hf hc ht hdriven hstart hprefix,
      lengthResult_of_error ((frameEnd_eq_partsEnd s t eos _).trans hlack)]
    rfl

end Sys2Proof.Proofs.LengthFrames
end

section
/-! PROOFS. The gates of R800 (spec/46_control.md). A command that fails a gate ends with that gate's status; what lies
behind the gates ends with OK or with a status of its own. -/

namespace Sys2Proof.Proofs.Gates

open Sys2Proof.Machine Sys2Proof.Proofs.Exceptions Sys2Proof.Proofs.Commands Sys2Proof.Proofs.Invariants
  Sys2Proof.Proofs.Delimiter Sys2Proof.Proofs.LengthFrames

/-! ### A gate that is shut (R800 steps 2 to 4) -/

section
variable {s : State} {i : Instr} {c : Status}

/-- The answer of a command that needs a template which is not there, or is of the other strategy. -/
theorem answer_of_templateGate {a : Action} (hi : templateAction i = some a) (h : templateGate s i a = some c) :
    answer s s.operands i = some (.error c) := by
  have hanswer (b : Template → Except Status Result) (hb : ∀ t, wrongStrategy t i = true → b t = .error .strategy) :
      templateAnswer s a b = .error c := by
    unfold templateGate at h
    unfold templateAnswer
    cases ht : s.template.get a with
    | none =>
      rw [ht] at h
      cases h
      rfl
    | some t =>
      rw [ht] at h
      dsimp only at h ⊢
      split at h <;> cases h
      next hwrong => exact hb t hwrong
  cases i with
  | build b => cases hi; exact congrArg some (hanswer _ nofun)
  | splitse eos b => cases hi; exact congrArg some (hanswer _ fun t ht => if_pos ht)
  | splitlen eos b => cases hi; exact congrArg some (hanswer _ fun t ht => if_neg (by simpa [wrongStrategy] using ht))
  | _ => cases hi

theorem not_isConfiguring_of_needsCommit (h : needsCommit i = true) : isConfiguring i = false := by
  cases i <;> first | rfl | cases h

theorem needsCommit_of_templateAction {a : Action} (h : templateAction i = some a) : needsCommit i = true := by
  cases i <;> first | rfl | cases h

theorem ne_status_reset_of_needsCommit (h : needsCommit i = true) : i ≠ .status ∧ i ≠ .reset := by
  constructor <;> rintro rfl <;> cases h

/-- What it says that a command passes all gates. -/
theorem passes_of_gateStatus (h : gateStatus s i = none) :
    (i ≠ .status → i ≠ .reset → s.faulted = false) ∧ (isConfiguring i = true → s.committed = false) ∧
      (needsCommit i = true → s.committed = true) ∧
      ∀ a, templateAction i = some a → ∃ t, s.template.get a = some t ∧ wrongStrategy t i = false := by
  unfold gateStatus at h
  split at h
  · cases h
  split at h
  · cases h
  split at h
  · cases h
  next hfaulted hlocked hneeds =>
    refine ⟨fun hstatus hreset => ?_, fun hi => ?_, fun hi => ?_, fun a hi => ?_⟩
    · simpa [hstatus, hreset] using hfaulted
    · simpa [hi] using hlocked
    · simpa [hi] using hneeds
    · rw [hi, Option.bind_some, templateGate] at h
      split at h
      · cases h
      · next t ht =>
        split at h
        · cases h
        · next hwrong => exact ⟨t, ht, by simpa using hwrong⟩

/-- A command that fails a gate ends with the gate's status and changes nothing. -/
theorem exec_of_gateStatus (h : gateStatus s i = some c) : exec i s = .next (s.ended { status := c }) := by
  unfold gateStatus at h
  split at h
  · next hfaulted =>
    cases h
    obtain ⟨⟨hf, hstatus⟩, hreset⟩ : (s.faulted = true ∧ i ≠ .status) ∧ i ≠ .reset := by simpa using hfaulted
    exact (exec_gated s hstatus hreset).eq_of_faulted hf
  next hfaulted =>
  have hopen (hstatus : i ≠ .status) (hreset : i ≠ .reset) : s.faulted = false := by
    simpa [hstatus, hreset] using hfaulted
  split at h
  · next hlocked =>
    cases h
    obtain ⟨hc, hi⟩ : s.committed = true ∧ isConfiguring i = true := by simpa using hlocked
    obtain ⟨b, hb⟩ := exists_write s s.operands hi
    have hf := hopen (by rintro rfl; cases hi) (by rintro rfl; cases hi)
    rw [exec_configuring hb, State.unlocked, if_neg (by simp [hf]), if_pos hc]
    rfl
  split at h
  · next hneeds =>
    cases h
    obtain ⟨hc, hi⟩ : s.committed = false ∧ needsCommit i = true := by simpa using hneeds
    obtain ⟨hstatus, hreset⟩ := ne_status_reset_of_needsCommit hi
    obtain ⟨b, hb⟩ := exists_answer s s.operands (not_isConfiguring_of_needsCommit hi) hstatus hreset
    rw [exec_answering hb, answerGate, if_pos hi, State.configured, if_neg (by simp [hopen hstatus hreset]),
      if_neg (by simp [hc])]
    rfl
  next hneeds =>
  obtain ⟨a, hi, hgate⟩ := Option.bind_eq_some_iff.mp h
  have hneed := needsCommit_of_templateAction hi
  obtain ⟨hstatus, hreset⟩ := ne_status_reset_of_needsCommit hneed
  exact exec_of_answer_error ⟨hopen hstatus hreset, fun _ => by simpa [hneed] using hneeds⟩
    (answer_of_templateGate hi hgate)

end

/-! ### Statuses behind the gates -/

/-- The statuses of R800's gates. -/
def isGate (c : Status) : Bool := c ∈ [Status.illegal, .faulted, .locked, .notCfg, .strategy]

/-- A status that is no gate's. -/
abbrev Ungated (c : Status) : Prop := isGate c = false

theorem ungated_iff {c : Status} : Ungated c ↔ c ∉ [Status.illegal, .faulted, .locked, .notCfg, .strategy] :=
  decide_eq_false_iff_not

theorem ungated_of_fatal {c : Status} (h : c.fatal = true) : Ungated c := by
  revert h
  cases c <;> decide

theorem isGate_of_gateStatus {s : State} {i : Instr} {c : Status} (h : gateStatus s i = some c) : isGate c = true := by
  unfold gateStatus at h
  split_ifs at h
  · cases h; rfl
  · cases h; rfl
  · cases h; rfl
  · obtain ⟨a, -, ha⟩ := Option.bind_eq_some_iff.mp h
    unfold templateGate at ha
    split at ha
    · cases ha; rfl
    · split at ha <;> cases ha
      rfl

/-- A computation that raises no gate's status. -/
abbrev UngatedError {α : Type} : Except Status α → Prop := EndsWith Ungated fun _ => True

/-- The computation of a result record that raises no gate's status. -/
abbrev UngatedResult : Except Status Result → Prop := EndsWith Ungated fun r => r.status = .ok

theorem UngatedError.map {α : Type} {b : Except Status α} (hb : UngatedError b) {f : α → Result}
    (hf : ∀ x, (f x).status = .ok) : UngatedResult (b.map f) := by
  cases b with
  | ok x => exact hf x
  | error c => exact hb

theorem ungated_status {b : Except Status Result} (hb : UngatedResult b) : Ungated (resultOf b).status := by
  cases b with
  | ok r =>
    have hok : r.status = .ok := hb
    rw [resultOf, hok]
    rfl
  | error c => exact hb

theorem kind_error {r : RawRec} {c : Status} (h : r.kind = .error c) : Ungated c := by
  unfold RawRec.kind at h
  split at h <;> cases h
  rfl

theorem hexDec_ungated (t : Buffer) : UngatedError (hexDec t) := by
  cases h : hexDec t with
  | ok _ => trivial
  | error _ => rw [Check.hexPairs_error h]; rfl

theorem lenBit_ungated (v : Value) : UngatedError (lenBit v) := by
  cases h : lenBit v with
  | ok _ => trivial
  | error _ => rw [Packing.lenBit_error h]; rfl

theorem writeValue_ungated (ord : Order) (v : Value) : UngatedError (writeValue ord v) := by
  cases v with
  | int _ _ | flt _ _ | bool _ | str _ => trivial
  | bytes t => exact hexDec_ungated t
  | empty | rngInt _ _ _ | rngFlt _ _ _ | time _ | err _ => rfl

theorem checkBody_ungated (ord : Order) (grid : Nat) (o : Operands) : UngatedResult (checkBody ord grid o) := by
  have hsized : UngatedResult (checkSized ord grid o) := by
    unfold checkSized
    split
    · next he => exact (lenBit_ungated o.val).error he
    · next w _ =>
      split
      · rfl
      · obtain ⟨pass, got, h⟩ | h := Check.checkField_cases ord grid w o
        · rw [h]; rfl
        · rw [h]; rfl
  unfold checkBody
  split
  case h_1 | h_2 | h_3 => rfl
  all_goals exact hsized

theorem countBits_ungated (grid : Nat) (vs : List Value) : UngatedError (countBits grid vs) := by
  have hfrom (c : Nat) : UngatedError (countFrom grid vs c) := by
    fun_induction countFrom grid vs c with
    | case1 => trivial
    | case2 _ _ _ ih => exact ih
    | case3 v _ _ _ e he => exact (lenBit_ungated v).error he
    | case4 _ _ _ _ _ _ ih => exact ih
  unfold countBits
  split
  · trivial
  · next he => exact (hfrom 0).error he

theorem packFrom_ungated (grid : Nat) (ord : Order) (vs : List Value) (p : Packed) :
    UngatedError (packFrom grid ord vs p) := by
  fun_induction packFrom grid ord vs p with
  | case1 => trivial
  | case2 _ _ _ ih => exact ih
  | case3 v _ _ _ e he => exact (writeValue_ungated ord v).error he
  | case4 _ _ _ _ _ _ ih => exact ih

theorem pack8Bytes_ungated (ord : Order) (vs : List Value) : UngatedError (pack8Bytes ord vs) := by
  unfold pack8Bytes
  split
  · trivial
  · next he => exact (packFrom_ungated 8 ord vs _).error he

theorem pack16Bytes_ungated (ord : Order) (vs : List Value) : UngatedError (pack16Bytes ord vs) := by
  unfold pack16Bytes
  split
  · trivial
  · next he => exact (packFrom_ungated 16 ord vs _).error he

section
variable (s : State) (a : Action) (data : Buffer)

theorem calcCrc_ungated (lenval : Nat) : UngatedError (calcCrc s a data lenval) := by
  unfold calcCrc
  split
  · rfl
  · trivial

theorem calcLen_ungated : UngatedError (calcLen s a data) := by
  have htoken (t : Token) : UngatedError (tokenLen s a data t) := by
    cases t with
    | crc =>
      simp only [tokenLen]
      split
      · split
        · trivial
        · next he => exact (calcCrc_ungated s a data 0).error he
      · trivial
    | _ => trivial
  have htotal (ts : List Token) (n : Nat) : UngatedError (totalLen s a data ts n) := by
    fun_induction totalLen s a data ts n with
    | case1 => trivial
    | case2 _ _ _ _ _ ih => exact ih
    | case3 t _ _ e he => exact (htoken t).error he
  unfold calcLen
  split
  · next he => exact (htotal _ 0).error he
  · split
    · rfl
    · trivial

theorem buildFrame_ungated : UngatedError (buildFrame s a data) := by
  unfold buildFrame
  split
  · next he =>
    unfold buildLen at he
    split at he
    · exact (calcLen_ungated s a data).error he
    · cases he
  · split
    · next he => exact (calcCrc_ungated s a data _).error he
    · trivial

end

theorem outcome_ungated (o : SplitOutcome) : UngatedResult (SplitExit.outcome o).toExcept := by cases o <;> rfl

theorem splitSE_ungated (t : Template) (m : Nat) (buf : Buffer) (eos : Bool) :
    UngatedResult (splitSE t m buf eos).toExcept := by
  unfold splitSE seekEnd
  split
  · exact outcome_ungated _
  · split
    · exact outcome_ungated _
    · split
      · exact outcome_ungated _
      · split
        · rfl
        · exact outcome_ungated _

/-- The strategy takes over in a buffer that begins with the start constant. -/
theorem prefix_of_startPhase {start buf : Buffer} {eos : Bool} (h : startPhase start buf eos = none) :
    buf ≠ [] ∧ start <+: buf := by
  unfold startPhase at h
  split at h
  · cases h
  · next hne =>
    refine ⟨by simpa using hne, ?_⟩
    split at h
    · split at h
      · cases h
      · split at h <;> cases h
    · next i hfind =>
      split at h
      · cases h
      · next hi =>
        obtain rfl : i = 0 := by omega
        obtain ⟨-, -, hprefix, -⟩ := find_eq_some_iff.mp hfind
        exact hprefix

theorem lacking_status (s : State) (t : Template) (eos : Bool) (m : Nat) : Ungated (lacking s t eos m).status := by
  unfold lacking
  split
  · rfl
  · split <;> rfl

/-- An exit and its result record raise the same status. -/
theorem ungated_of_exitResult {e : SplitExit} (h : Ungated (exitResult e).status) : UngatedResult e.toExcept := by
  cases e with
  | outcome o => exact outcome_ungated o
  | raise c => exact h

theorem splitLen_ungated (s : State) (t : Template) (buf : Buffer) (eos : Bool) :
    UngatedResult (splitLen s t buf eos).toExcept := by
  unfold splitLen
  cases hstart : startPhase t.start buf eos with
  | some o => exact outcome_ungated o
  | none =>
    obtain ⟨-, hprefix⟩ := prefix_of_startPhase hstart
    refine ungated_of_exitResult ?_
    dsimp only
    rw [exitResult_seekLength hprefix.length_le]
    cases hend : frameEnd s t eos buf with
    | ok n =>
      rw [lengthResult_of_ok hend]
      rfl
    | error r =>
      rw [lengthResult_of_error hend]
      rw [frameEnd_eq_partsEnd] at hend
      obtain ⟨m, rfl⟩ := LengthField.lacking_of_partsEnd hend
      exact lacking_status s t eos m

/-- What a command answers behind its gates. -/
theorem answer_ungated {s : State} {o : Operands} {i : Instr} {b : Except Status Result} (h : answer s o i = some b)
    (hgate : ∀ a, templateAction i = some a → ∃ t, s.template.get a = some t ∧ wrongStrategy t i = false) :
    UngatedResult b := by
  have hmap {α : Type} {x : Except Status α} {f : α → Result} (hb : x.map f = b) (hx : UngatedError x)
      (hf : ∀ y, (f y).status = .ok) : UngatedResult b := by
    rw [← hb]
    exact hx.map hf
  cases i with
  | setconst | setstaff | setcrc | setlen | setfmt _ | setcrclist _ | setlenlist _ | setmax | commit | status | reset =>
    rw [answer] at h <;> cases h
  | durparse | mod256 | crc16 _ | stuff | unstuff | chksum =>
    rw [answer, Option.some.injEq] at h
    rw [← h]
    rfl
  | type =>
    rw [answer, Option.some.injEq] at h
    cases hkind : o.record.kind with
    | ok k => rw [← h, hkind]; rfl
    | error c => rw [← h, hkind]; exact kind_error hkind
  | lenbit => rw [answer, Option.some.injEq] at h; exact hmap h (lenBit_ungated _) fun _ => rfl
  | write ord => rw [answer, Option.some.injEq] at h; exact hmap h (writeValue_ungated ord _) fun _ => rfl
  | hexdec => rw [answer, Option.some.injEq] at h; exact hmap h (hexDec_ungated _) fun _ => rfl
  | countbit grid => rw [answer, Option.some.injEq] at h; exact hmap h (countBits_ungated _ _) fun _ => rfl
  | pack8 ord => rw [answer, Option.some.injEq] at h; exact hmap h (pack8Bytes_ungated ord _) fun _ => rfl
  | pack16 ord => rw [answer, Option.some.injEq] at h; exact hmap h (pack16Bytes_ungated ord _) fun _ => rfl
  | calclen a => rw [answer, Option.some.injEq] at h; exact hmap h (calcLen_ungated s a _) fun _ => rfl
  | calccrc a => rw [answer, Option.some.injEq] at h; exact hmap h (calcCrc_ungated s a _ _) fun _ => rfl
  | verify a => rw [answer, Option.some.injEq] at h; exact hmap h (calcCrc_ungated s a _ _) fun _ => rfl
  | check ord grid => rw [answer, Option.some.injEq] at h; exact h ▸ checkBody_ungated ord _ o
  | build a =>
    obtain ⟨t, ht, -⟩ := hgate a rfl
    rw [answer, templateAnswer, ht, Option.some.injEq] at h
    exact hmap h (buildFrame_ungated s a _) fun _ => rfl
  | splitse eos a =>
    obtain ⟨t, ht, hstrategy⟩ := hgate a rfl
    rw [wrongStrategy] at hstrategy
    simp only [answer, templateAnswer, ht, hstrategy, Option.some.injEq] at h
    exact h ▸ splitSE_ungated t _ _ eos
  | splitlen eos a =>
    obtain ⟨t, ht, hstrategy⟩ := hgate a rfl
    rw [wrongStrategy, Bool.not_eq_false'] at hstrategy
    simp only [answer, templateAnswer, ht, hstrategy, Option.some.injEq] at h
    exact h ▸ splitLen_ungated s t _ eos

/-- What a SET command or COMMIT raises behind its gates. -/
theorem writeOf_ungated {s : State} {o : Operands} {i : Instr} {c : Status} (h : writeOf s o i = some (.error c)) :
    Ungated c := by
  have hfield {n : Nat} {f : Word → Write} (hf : (operandField n o.word).map f = .error c) : Ungated c := by
    rw [Settings.operandField_eq] at hf
    split at hf <;> cases hf
    rfl
  cases i with
  | setconst =>
    simp only [writeOf, Option.some.injEq] at h
    split at h <;> cases h
    rfl
  | setstaff | setcrc | setlen => exact hfield (Option.some.inj h)
  | commit =>
    simp only [writeOf, Compiler.compiled_eq, Option.some.injEq] at h
    cases hfault : commitFault s <;> rw [hfault] at h <;> cases h
    exact ungated_of_fatal (Commit.commitFault_fatal hfault)
  | _ => cases h

/-! ### The obligation -/

/-- Settles O13. -/
theorem gatesComeFirst : Obligations.GatesComeFirst := by
  refine fun i s => ⟨fun c => exec_of_gateStatus, fun h => ?_⟩
  obtain ⟨hfaulted, hopen, hneeds, htemplate⟩ := passes_of_gateStatus h
  simp only [← ungated_iff]
  obtain rfl | hstatus := eq_or_ne i .status
  · exact ⟨_, Control.exec_status s, rfl⟩
  obtain rfl | hreset := eq_or_ne i .reset
  · exact ⟨_, exec_reset s, rfl⟩
  have hf := hfaulted hstatus hreset
  obtain hi | hi := Bool.eq_false_or_eq_true (isConfiguring i)
  · obtain ⟨b, hb⟩ := exists_write s s.operands hi
    cases b with
    | ok w => exact ⟨_, exec_of_write_ok hf (hopen hi) hb, rfl⟩
    | error c =>
      refine ⟨_, exec_of_write_error hf (hopen hi) hb, ?_⟩
      rw [State.raise_result]
      exact writeOf_ungated hb
  · obtain ⟨b, hb⟩ := exists_answer s s.operands hi hstatus hreset
    exact ⟨_, exec_of_answer ⟨hf, hneeds⟩ hb, ungated_status (answer_ungated hb htemplate)⟩

end Sys2Proof.Proofs.Gates
end

section
/-! PROOFS. The laws of the splitters (spec/43_delimiter.md R530). In a consistent state a splitter passes bytes, cuts a
frame off the buffer's front, or finds it incomplete at end of stream (`SplitResult`); and a frame stays as bytes arrive. -/

namespace Sys2Proof.Proofs.SplitLaws

open Sys2Proof.Machine Sys2Proof.Proofs.Commands Sys2Proof.Proofs.Invariants Sys2Proof.Proofs.Configurations
  Sys2Proof.Proofs.Delimiter Sys2Proof.Proofs.LengthField Sys2Proof.Proofs.LengthFrames Sys2Proof.Proofs.Gates

/-! ### What a splitter ends with -/

/-- The result records of a splitter of template t under M. -/
inductive SplitResult (t : Template) (m : Nat) (eos : Bool) (buf : Buffer) : Result → Prop
  | passed {d : Nat} {fin : Bool} (hd : d ≤ buf.length) (hprogress : eos = true → 0 < d ∨ fin = true) :
    SplitResult t m eos buf { adv := some d, frame := some none, isFinal := some fin }
  | frame {n : Nat} (hn : 0 < n) (hbuf : n ≤ buf.length) (hmax : n ≤ m) (hstart : t.start <+: buf.take n)
    (hend : t.lenDriven = false → t.endConst <:+ buf.take n) : SplitResult t m eos buf (frameRecord eos buf n)
  | incomplete : SplitResult t m eos buf { status := .eosIncomplete }

section
variable {s : State} {t : Template} {m : Nat} {eos : Bool} {buf : Buffer}

theorem splitResult_of_startPhase {o : SplitOutcome} (hstart : t.start ≠ [])
    (h : startPhase t.start buf eos = some o) : SplitResult t m eos buf o.result := by
  have hpos := List.length_pos_iff.mpr hstart
  unfold startPhase at h
  split at h
  · cases h
    cases eos
    · exact .passed (Nat.zero_le _) nofun
    · exact .passed (Nat.zero_le _) fun _ => .inr rfl
  · next hne =>
    split at h
    · split at h
      · cases h
        exact .passed le_rfl fun _ => .inl (Nat.pos_of_ne_zero hne)
      · next heos =>
        split at h <;> cases h
        · exact .passed (Nat.sub_le _ _) fun h => absurd h heos
        · exact .passed (Nat.zero_le _) fun h => absurd h heos
    · next i hfind =>
      split at h <;> cases h
      obtain ⟨-, hle, -, -⟩ := find_eq_some_iff.mp hfind
      exact .passed (by omega) fun _ => .inl ‹0 < i›

theorem splitSE_result (hstart : t.start ≠ []) : SplitResult t m eos buf (exitResult (splitSE t m buf eos)) := by
  have hpos := List.length_pos_iff.mpr hstart
  unfold splitSE
  cases hphase : startPhase t.start buf eos with
  | some o => exact splitResult_of_startPhase hstart hphase
  | none =>
    obtain ⟨hne, hprefix⟩ := prefix_of_startPhase hphase
    have hbuf := List.length_pos_iff.mpr hne
    dsimp only
    unfold seekEnd
    split
    · next j hfind =>
      obtain ⟨hj, hle, hend, -⟩ := find_eq_some_iff.mp hfind
      obtain ⟨hlen, hmax⟩ := le_min_iff.mp hle
      dsimp only
      rw [exitResult_frame]
      exact .frame (by omega) hlen hmax (List.prefix_take_iff.mpr ⟨hprefix, by omega⟩) fun _ => (suffix_take_iff hlen).mpr hend
    · split
      · exact .passed hbuf fun _ => .inl Nat.one_pos
      · split
        · exact .incomplete
        · next heos => exact .passed (Nat.zero_le _) fun h => absurd h heos

/-- A part of some bytes ends behind its place, within the buffer and M. -/
theorem lt_of_partEnd {n pos p : Nat} {staffed : Bool} (hn : n ≠ 0) (h : partEnd s t eos buf n staffed pos = .ok p) :
    pos < p ∧ p ≤ min buf.length s.maxFrame := by
  suffices hlt : pos < p by
    have hbounds := bounds_of_partEnd h
    omega
  unfold partEnd at h
  split at h
  · split at h <;> cases h
    omega
  · next r _ =>
    dsimp only at h
    split at h <;> cases h
    next hthere =>
    obtain ⟨k, rfl⟩ := Nat.exists_eq_succ_of_ne_zero hn
    have hlong : ¬ (unitsFrom s r buf pos).length < k.succ := fun hlt => hthere ⟨hn, .inl hlt⟩
    cases hw : (buf.take s.maxFrame).drop pos with
    | nil =>
      rw [unitsFrom, hw] at hlong
      simp [units] at hlong
    | cons b w =>
      obtain ⟨u, us, hunits⟩ := exists_units_cons r b w
      rw [unitsFrom, hw, hunits]
      simp

/-- The frame that SPLITLEN measures lies behind the start constant, within the buffer and M. -/
theorem bounds_of_frameEnd {n : Nat} (hwidth : s.lenWidth ≠ 0) (h : frameEnd s t eos buf = .ok n) :
    t.start.length < n ∧ n ≤ min buf.length s.maxFrame := by
  rw [frameEnd_eq_partsEnd, partsEnd] at h
  split at h
  · next p hpart =>
    have hfirst := lt_of_partEnd hwidth hpart
    have hrest := bounds_of_partsEnd h
    omega
  · cases h

theorem splitLen_result (hstart : t.start ≠ []) (hdriven : t.lenDriven = true) (hwidth : s.lenWidth ≠ 0) :
    SplitResult t s.maxFrame eos buf (exitResult (splitLen s t buf eos)) := by
  have hpos := List.length_pos_iff.mpr hstart
  unfold splitLen
  cases hphase : startPhase t.start buf eos with
  | some o => exact splitResult_of_startPhase hstart hphase
  | none =>
    obtain ⟨-, hprefix⟩ := prefix_of_startPhase hphase
    dsimp only
    rw [exitResult_seekLength hprefix.length_le]
    cases hend : frameEnd s t eos buf with
    | ok n =>
      rw [lengthResult_of_ok hend]
      obtain ⟨hlt, hle⟩ := bounds_of_frameEnd hwidth hend
      obtain ⟨hbuf, hmax⟩ := le_min_iff.mp hle
      exact .frame (by omega) hbuf hmax (List.prefix_take_iff.mpr ⟨hprefix, hlt.le⟩) fun h =>
        Bool.noConfusion (hdriven.symm.trans h)
    | error r =>
      rw [lengthResult_of_error hend]
      rw [frameEnd_eq_partsEnd] at hend
      obtain ⟨k, rfl⟩ := lacking_of_partsEnd hend
      unfold lacking
      split
      · exact .passed hprefix.length_le fun _ => .inl hpos
      · split
        · exact .incomplete
        · next heos => exact .passed (Nat.zero_le _) fun h => absurd h heos

/-- A splitter that ends with OK, or with a frame, has passed its gates. -/
theorem splitter_passes {i : Instr} {a : Action} {u : State} (hi : i = .splitse eos a ∨ i = .splitlen eos a)
    (hexec : exec i s = .next u) (hpassed : u.result.status = .ok ∨ u.result.frame ≠ none) :
    s.faulted = false ∧ s.committed = true ∧ ∃ t, s.template.get a = some t ∧ wrongStrategy t i = false := by
  have hgate : gateStatus s i = none := by
    cases hg : gateStatus s i with
    | none => rfl
    | some c =>
      have hc := isGate_of_gateStatus hg
      cases hexec.symm.trans (exec_of_gateStatus hg)
      obtain hok | hframe := hpassed
      · cases (show c = .ok from hok)
        cases hc
      · exact absurd rfl hframe
  obtain ⟨hfaulted, -, hneeds, htemplate⟩ := passes_of_gateStatus hgate
  obtain rfl | rfl := hi <;> exact ⟨hfaulted nofun nofun, hneeds rfl, htemplate a rfl⟩

/-- What a splitter that ends with OK ends with. -/
theorem splitter_result {i : Instr} {a : Action} {u : State} (hs : s.Consistent)
    (hi : i = .splitse eos a ∨ i = .splitlen eos a) (hexec : exec i s = .next u) (hok : u.result.status = .ok) :
    ∃ t, s.template.get a = some t ∧ SplitResult t s.maxFrame eos s.operands.buf u.result := by
  obtain ⟨hf, hc, t, ht, hstrategy⟩ := splitter_passes hi hexec (.inl hok)
  obtain ⟨⟨hstart, -⟩, -, -, -, hwidth⟩ := consistentTemplatesWellFormed s a t hs ht
  refine ⟨t, ht, ?_⟩
  obtain rfl | rfl := hi
  · cases hexec.symm.trans (exec_splitse hf hc ht hstrategy)
    exact splitSE_result hstart
  · have hdriven : t.lenDriven = true := by simpa [wrongStrategy] using hstrategy
    cases hexec.symm.trans (exec_splitlen hf hc ht hdriven)
    exact splitLen_result hstart hdriven (by have := hwidth hdriven; omega)

end

/-! ### More bytes (R530) -/

section
variable {s : State} {t : Template} {m : Nat} {buf x : Buffer}

theorem startPhase_append {start : Buffer} (h : startPhase start buf false = none) :
    startPhase start (buf ++ x) false = none := by
  obtain ⟨hne, hprefix⟩ := prefix_of_startPhase h
  have hfind : find (buf ++ x) start 0 (buf ++ x).length = some 0 :=
    find_eq_some_iff.mpr ⟨le_rfl, by have := hprefix.length_le; rw [List.length_append]; omega,
      hprefix.trans (List.prefix_append buf x), nofun⟩
  rw [startPhase, if_neg (by simp [hne]), hfind]
  rfl

/-- An end constant that is found is found again. -/
theorem find_append {p : Buffer} {lo k : Nat} (h : find buf p lo (min buf.length m) = some k) :
    find (buf ++ x) p lo (min (buf ++ x).length m) = some k := by
  obtain ⟨hlo, hle, hk, hfirst⟩ := find_eq_some_iff.mp h
  have hdrop {j : Nat} (hj : j ≤ k) : (buf ++ x).drop j = buf.drop j ++ x :=
    List.drop_append_of_le_length (by omega)
  refine find_eq_some_iff.mpr ⟨hlo, by rw [List.length_append]; omega, ?_, fun j hj hjk hp => hfirst j hj hjk ?_⟩
  · rw [hdrop le_rfl]
    exact hk.trans (List.prefix_append _ _)
  · rw [hdrop hjk.le] at hp
    exact List.prefix_of_prefix_length_le hp (List.prefix_append _ _) (by rw [List.length_drop]; omega)

theorem seekEnd_append {n : Nat} {f : Buffer} {fin : Bool} (h : seekEnd t m buf false = .outcome (.frame n f fin)) :
    seekEnd t m (buf ++ x) false = .outcome (.frame n f fin) := by
  unfold seekEnd at h ⊢
  cases hfind : find buf t.endConst t.start.length (min buf.length m) with
  | none =>
    rw [hfind] at h
    dsimp only at h
    split_ifs at h
    all_goals cases h
  | some j =>
    obtain ⟨-, hle, -, -⟩ := find_eq_some_iff.mp hfind
    rw [hfind] at h
    rw [find_append hfind]
    cases h
    dsimp only
    rw [slice_zero, slice_zero, List.take_append_of_le_length (by omega)]
    rfl

theorem staffedField_append {c c' : SplitCtx} {r : StaffRule} {l : Buffer} {n pos : Nat} {y : Buffer × Nat}
    (hmax : c'.max = c.max) (heos : c.eos = false) (h : c.staffedField r l n pos = .ok y) :
    c'.staffedField r (l ++ x) n pos = .ok y := by
  fun_induction SplitCtx.staffedField c r l n pos generalizing y with
  | case1 | case3 | case8 => simp_all
  | case2 | case4 | case5 | case7 | case9 => cases h
  | case6 b pos hlt hneed =>
    have hescaped : ¬ (r.has b = true ∧ pos + 1 < c.max) := fun hb => hneed ⟨hb.1, hb.2, heos⟩
    rw [← hmax] at hlt hescaped
    cases h
    cases x with
    | nil =>
      rw [List.append_nil, SplitCtx.staffedField, if_neg Nat.one_ne_zero, if_neg hlt,
        if_neg fun hb => hescaped ⟨hb.1, hb.2.1⟩, if_pos rfl]
    | cons e x =>
      rw [List.singleton_append, SplitCtx.staffedField, if_neg Nat.one_ne_zero, if_neg hlt,
        if_neg fun hb => hescaped ⟨hb.1, hb.2.1⟩, Staffing.staffedField_zero]
      rfl
  | case10 b e bs n pos hn hlt hesc ih =>
    obtain ⟨z, hz, hy⟩ := Staffing.consField_eq_ok (out := y.1) (p := y.2) h
    rw [← hmax] at hlt hesc
    rw [List.cons_append, List.cons_append, SplitCtx.staffedField, if_neg hn, if_neg hlt, if_pos hesc, ih hz, consField,
      ← hy]
  | case11 b e bs n pos hn hlt hesc ih =>
    obtain ⟨z, hz, hy⟩ := Staffing.consField_eq_ok (out := y.1) (p := y.2) h
    rw [← hmax] at hlt hesc
    rw [List.cons_append, List.cons_append, SplitCtx.staffedField, if_neg hn, if_neg hlt, if_neg hesc,
      ← List.cons_append, ih hz, consField, ← hy]

/-- A part that has ended ends there again. -/
theorem field_append {n pos : Nat} {staffed : Bool} {y : Buffer × Nat} (hpos : pos ≤ buf.length)
    (h : (splitCtx s t buf false).field n staffed pos = .ok y) :
    (splitCtx s t (buf ++ x) false).field n staffed pos = .ok y := by
  cases hrule : (if staffed then s.rule else none) with
  | none =>
    rw [field_plain hrule] at h ⊢
    split at h <;> cases h
    next hheld =>
    rw [if_pos (by rw [List.length_append]; omega), List.drop_append_of_le_length hpos]
    by_cases hn : n = 0
    · rw [hn, List.take_zero, List.take_zero]
    · rw [List.take_append_of_le_length (by rw [List.length_drop]; omega)]
  | some r =>
    rw [field_staffed_eq hrule] at h ⊢
    rw [List.drop_append_of_le_length hpos]
    exact staffedField_append (c := splitCtx s t buf false) rfl rfl h

theorem passField_append {n pos p : Nat} {staffed : Bool} (hpos : pos ≤ buf.length)
    (h : (splitCtx s t buf false).passField n staffed pos = .ok p) :
    (splitCtx s t (buf ++ x) false).passField n staffed pos = .ok p := by
  unfold SplitCtx.passField at h ⊢
  cases hfield : (splitCtx s t buf false).field n staffed pos with
  | ok y =>
    rw [hfield] at h
    rw [field_append hpos hfield]
    exact h
  | error e =>
    rw [hfield] at h
    cases h

theorem suffix_append {ks : List SuffixToken} {pos p : Nat} (hpos : pos ≤ buf.length)
    (h : (splitCtx s t buf false).suffix s ks pos = .ok p) :
    (splitCtx s t (buf ++ x) false).suffix s ks pos = .ok p := by
  induction ks generalizing pos with
  | nil => exact h
  | cons k ks ih =>
    rw [SplitCtx.suffix, suffixToken_eq] at h ⊢
    cases hpart : (splitCtx s t buf false).passField (suffixPart s k).1 (suffixPart s k).2 pos with
    | ok q =>
      rw [hpart] at h
      rw [passField_append hpos hpart]
      exact ih (passField_le hpos hpart) h
    | error e =>
      rw [hpart] at h
      cases h

/-- A frame that is measured is measured again. -/
theorem frameLength_append {n : Nat} (hstart : t.start.length ≤ buf.length)
    (h : (splitCtx s t buf false).frameLength s t = .ok n) :
    (splitCtx s t (buf ++ x) false).frameLength s t = .ok n := by
  unfold SplitCtx.frameLength at h ⊢
  rw [show (splitCtx s t buf false).startLen = t.start.length from rfl] at h
  rw [show (splitCtx s t (buf ++ x) false).startLen = t.start.length from rfl]
  cases hfield : (splitCtx s t buf false).field s.lenWidth s.lenStaffed t.start.length with
  | error e =>
    rw [hfield] at h
    cases h
  | ok y =>
    have hpos : y.2 ≤ buf.length :=
      passField_le (s := s) (t := t) (eos := false) (n := s.lenWidth) (staffed := s.lenStaffed) hstart
        (by rw [SplitCtx.passField, hfield])
    rw [hfield] at h
    rw [field_append hstart hfield]
    dsimp only at h ⊢
    rw [span_eq] at h ⊢
    cases hspan : (splitCtx s t buf false).passField (uintOf s.lord y.1) (!s.lenCountsWire) y.2 with
    | error e =>
      rw [hspan] at h
      cases h
    | ok q =>
      rw [hspan] at h
      rw [passField_append hpos hspan]
      exact suffix_append (passField_le hpos hspan) h

/-- The exits with a frame. -/
theorem outcome_of_frame {e : SplitExit} {f : Buffer} (h : (exitResult e).frame = some (some f)) :
    ∃ n fin, e = .outcome (.frame n f fin) := by
  cases e with
  | raise c => cases h
  | outcome o =>
    cases o with
    | frame n g fin => cases h; exact ⟨n, fin, rfl⟩
    | _ => cases h

theorem startPhase_ne_frame {start : Buffer} {eos fin : Bool} {n : Nat} {f : Buffer} :
    startPhase start buf eos ≠ some (.frame n f fin) := by
  unfold startPhase
  split
  · cases eos <;> exact nofun
  · split
    · split_ifs <;> exact nofun
    · split <;> exact nofun

theorem splitSE_append {n : Nat} {f : Buffer} {fin : Bool} (h : splitSE t m buf false = .outcome (.frame n f fin)) :
    splitSE t m (buf ++ x) false = .outcome (.frame n f fin) := by
  unfold splitSE at h ⊢
  cases hphase : startPhase t.start buf false with
  | some o =>
    rw [hphase] at h
    cases h
    exact absurd hphase startPhase_ne_frame
  | none =>
    rw [hphase] at h
    rw [startPhase_append hphase]
    exact seekEnd_append h

theorem lacking_ne_frame (s : State) (t : Template) (eos : Bool) (k : Nat) (f : Buffer) :
    (lacking s t eos k).frame ≠ some (some f) := by
  unfold lacking
  split
  · exact nofun
  · split <;> exact nofun

theorem splitLen_append {n : Nat} {f : Buffer} {fin : Bool} (h : splitLen s t buf false = .outcome (.frame n f fin)) :
    splitLen s t (buf ++ x) false = .outcome (.frame n f fin) := by
  unfold splitLen at h ⊢
  cases hphase : startPhase t.start buf false with
  | some o =>
    rw [hphase] at h
    cases h
    exact absurd hphase startPhase_ne_frame
  | none =>
    obtain ⟨-, hprefix⟩ := prefix_of_startPhase hphase
    have hstart := hprefix.length_le
    rw [hphase] at h
    rw [startPhase_append hphase]
    dsimp only at h ⊢
    unfold seekLength at h ⊢
    cases hlength : (splitCtx s t buf false).frameLength s t with
    | ok k =>
      have hend := frameLength_eq (s := s) (eos := false) hstart
      rw [hlength] at hend h
      rw [frameEnd_eq_partsEnd] at hend
      have hbounds := bounds_of_partsEnd hend.symm
      rw [frameLength_append hstart hlength]
      cases h
      dsimp only
      rw [slice_zero, slice_zero, List.take_append_of_le_length (by omega)]
      rfl
    | error e =>
      have hend := frameLength_eq (s := s) (eos := false) hstart
      rw [hlength] at hend h
      cases (show e = .outcome (.frame n f fin) from h)
      rw [frameEnd_eq_partsEnd] at hend
      obtain ⟨k, hk⟩ := lacking_of_partsEnd hend.symm
      exact absurd (congrArg Result.frame hk.symm) (lacking_ne_frame s t false k f)

end

/-! ### The obligations -/

/-- Settles O44. -/
theorem splitOutcomesAreFramed : Obligations.SplitOutcomesAreFramed := by
  intro s u eos a i hs hi hexec hok
  obtain ⟨t, ht, hresult⟩ := splitter_result hs hi hexec hok
  generalize u.result = r at hresult hok
  cases hresult with
  | passed hd _ => exact ⟨t, _, _, _, ht, rfl, hd, nofun⟩
  | frame hn hbuf hmax hstart hend =>
    refine ⟨t, _, _, _, ht, rfl, hbuf, ?_⟩
    rintro fr ⟨⟩
    exact ⟨hn, rfl, List.length_take_of_le hbuf, hmax, hstart, rfl, hend⟩
  | incomplete => cases hok

/-- Settles O45. -/
theorem noNeedAtEndOfStream : Obligations.NoNeedAtEndOfStream := by
  intro s u a i hs hi hexec hok
  obtain ⟨t, -, hresult⟩ := splitter_result hs hi hexec hok
  generalize u.result = r at hresult hok
  cases hresult with
  | @passed d fin hd hprogress =>
    cases d with
    | zero => exact .inr ⟨rfl, congrArg some ((hprogress rfl).resolve_left (lt_irrefl 0))⟩
    | succ d => exact .inl ⟨d, rfl⟩
  | @frame n hn _ _ _ _ => exact .inl ⟨n - 1, congrArg some (Nat.sub_add_cancel hn).symm⟩
  | incomplete => cases hok

/-- Settles O46. -/
theorem framesAreStableAsBytesArrive : Obligations.FramesAreStableAsBytesArrive := by
  intro s u a i o x n f hi hexec _ hframe
  obtain ⟨hf, hc, t, ht, hstrategy⟩ := splitter_passes hi hexec (.inr (by rw [hframe]; exact nofun))
  obtain rfl | rfl := hi
  · cases hexec.symm.trans (exec_splitse hf hc ht hstrategy)
    obtain ⟨n, fin, hsplit⟩ := outcome_of_frame hframe
    refine ⟨_, exec_splitse (s := s.issue _ _) hf hc ht hstrategy, ?_⟩
    have hsplit : splitSE t s.maxFrame o.buf false = .outcome (.frame n f fin) := hsplit
    show exitResult (splitSE t s.maxFrame (o.buf ++ x) false) = exitResult (splitSE t s.maxFrame o.buf false)
    rw [splitSE_append hsplit, hsplit]
  · have hdriven : t.lenDriven = true := by simpa [wrongStrategy] using hstrategy
    cases hexec.symm.trans (exec_splitlen hf hc ht hdriven)
    obtain ⟨n, fin, hsplit⟩ := outcome_of_frame hframe
    refine ⟨_, exec_splitlen (s := s.issue _ _) hf hc ht hdriven, ?_⟩
    have hhost (i : Instr) (o : Operands) (buf : Buffer) : splitLen (s.issue i o) t buf false = splitLen s t buf false :=
      splitLen_withHost s s.result _ s.loop t buf false
    have hsplit : splitLen s t o.buf false = .outcome (.frame n f fin) := (hhost _ _ _).symm.trans hsplit
    show exitResult (splitLen (s.issue _ _) t (o.buf ++ x) false) = exitResult (splitLen (s.issue _ _) t o.buf false)
    rw [hhost, hhost, splitLen_append hsplit, hsplit]

end Sys2Proof.Proofs.SplitLaws
end

section
/-! PROOFS. Build, then split (spec/43_delimiter.md R530; spec/45_checksum.md R750). A built frame is its tokens' wire bytes
one after the other; SPLITSE finds its end constant, and SPLITLEN reads its parts back over their wire spans. -/

namespace Sys2Proof.Proofs.BuiltFrames

open Sys2Proof.Machine Sys2Proof.Proofs.Commands Sys2Proof.Proofs.Invariants Sys2Proof.Proofs.Compiler
  Sys2Proof.Proofs.Configurations Sys2Proof.Proofs.Frames Sys2Proof.Proofs.Delimiter Sys2Proof.Proofs.LengthField
  Sys2Proof.Proofs.LengthFrames

section
variable {s : State} {a : Action} {t : Template} {data f : Buffer}

/-! ### The built frame -/

theorem buildFrame_of_exec {u : State} (hf : s.faulted = false) (hc : s.committed = true)
    (ht : s.template.get a = some t) (hexec : exec (.build a) (s.issue (.build a) { buf := data }) = .next u)
    (hbytes : u.result.bytes = some f) : buildFrame s a data = .ok f := by
  have hanswer : answer s { buf := data } (.build a) =
      some ((buildFrame s a data).map fun bs => { bytes := some bs }) := by
    rw [answer, templateAnswer, ht]
  cases hexec.symm.trans (exec_issue s ⟨hf, fun _ => hc⟩ hanswer)
  cases hbuild : buildFrame s a data with
  | ok g => rw [hbuild] at hbytes; cases hbytes; rfl
  | error c => rw [hbuild] at hbytes; cases hbytes

/-- A built frame is its format's wire bytes, for some length value and checksum. -/
theorem exists_frameBytes (hfmt : ∀ c ∈ s.fmt.get a, Assigned c) (h : buildFrame s a data = .ok f) :
    ∃ l c, f = (s.fmt.get a).flatMap (frameBytes s data l c) := by
  unfold buildFrame at h
  split at h
  · cases h
  · next l _ =>
    split at h
    · cases h
    · next c _ =>
      cases h
      refine ⟨l, c, ?_⟩
      rw [tokensOf, List.flatMap_map]
      exact List.flatMap_congr fun d hd => wireBytes_tokenOf (hfmt d hd)

variable {l : Nat} {c : Buffer}

theorem frameBytes_const {d : Byte} (h : IsConst d) : frameBytes s data l c d = s.constBytes (tokenSlot d) := by
  obtain ⟨hlen, hdata, hcrc⟩ := ne_marker h
  exact (if_neg hlen).trans ((if_neg hdata).trans (if_neg hcrc))

theorem flatMap_frameBytes_constCodes (ks : List (Fin Config.constSlots)) :
    (constCodes ks).flatMap (frameBytes s data l c) = constConcat s ks := by
  rw [← flatMap_constCodes]
  exact List.flatMap_congr fun d hd => frameBytes_const (isConst_constCodes d hd)

/-! ### Frames with an end constant (R510) -/

/-- A frame that ends with the end constant, and not before, is cut. -/
theorem splitSE_of_built {m : Nat} {eos : Bool} {x : Buffer} (hstart : t.start ≠ []) (hprefix : t.start <+: f)
    (hsuffix : t.endConst <:+ f) (hlen : t.start.length + t.endConst.length ≤ f.length) (hmax : f.length ≤ m)
    (hearly : ∀ j, t.start.length ≤ j → j + t.endConst.length < f.length → ¬ t.endConst <+: f.drop j) :
    exitResult (splitSE t m (f ++ x) eos) =
      { adv := some f.length, frame := some (some f), isFinal := some (eos && x = []) } := by
  have hend : EndsAt t (f ++ x) f.length := ⟨hlen, by rw [List.length_append]; omega, by rwa [List.take_left]⟩
  have hfirst (k : Nat) (hk : k < f.length) : ¬ EndsAt t (f ++ x) k := by
    intro hearlier
    obtain ⟨j, rfl⟩ := exists_of_endsAt hearlier
    obtain ⟨hj, hp⟩ := (endsAt_iff hearlier.2.1).mp hearlier
    rw [List.drop_append_of_le_length (by omega)] at hp
    exact hearly j hj hk (List.prefix_of_prefix_length_le hp (List.prefix_append _ _) (by rw [List.length_drop]; omega))
  have hfinal : decide (f.length = (f ++ x).length) = decide (x = []) := by simp
  rw [splitSE, startPhase_of_prefix hstart (hprefix.trans (List.prefix_append f x))]
  simp only [seekEnd_of_endsAt hend hmax hfirst, List.take_left]
  rw [← hfinal]
  rfl

/-! ### Reading parts back (R520, R605) -/

/-- The wire bytes of a part. -/
def wirePart (s : State) (staffed : Bool) (d : Buffer) : Buffer := if staffed then stuffing s.rule d else d

/-- A part's wire bytes are read back over their span. -/
theorem field_wirePart {eos staffed : Bool} {pre d rest : Buffer}
    (hmax : pre.length + (wirePart s staffed d).length ≤ s.maxFrame) :
    (splitCtx s t (pre ++ wirePart s staffed d ++ rest) eos).field d.length staffed pre.length =
      .ok (d, pre.length + (wirePart s staffed d).length) := by
  cases hrule : (if staffed then s.rule else none) with
  | none =>
    have hwire : wirePart s staffed d = d := by
      cases staffed with
      | false => rfl
      | true => rw [wirePart, if_pos rfl, show s.rule = none from hrule]; rfl
    rw [hwire] at hmax ⊢
    rw [field_plain hrule, if_pos (.inr (by simp only [List.length_append]; omega)), List.append_assoc, List.drop_left,
      List.take_left]
  | some r =>
    have hwire : wirePart s staffed d = stuffBy r d := by
      obtain ⟨rfl, hsome⟩ : staffed = true ∧ s.rule = some r := by cases staffed <;> simp_all
      rw [wirePart, if_pos rfl, hsome]
      rfl
    rw [hwire] at hmax ⊢
    rw [field_staffed_eq hrule, List.append_assoc, List.drop_left]
    exact Staffing.staffedField_stuffBy _ r d rest _ hmax

end

/-! ### The obligations -/

/-- Settles O47. -/
theorem builtFrameSplitsByEndConstant : Obligations.BuiltFrameSplitsByEndConstant := by
  intro s u eos a t data f x ks es ms hs hf ht hdriven hfmt hne hms hexec hbytes hmax hearly
  have hc := committed_of_template hs ht
  obtain ⟨hfault, htemplates⟩ := commitFault_of_committed hs hc
  obtain ⟨hnil, rfl⟩ := templateOf_eq_some ((htemplates a).symm.trans ht)
  obtain ⟨hcodes, -, -⟩ := lists_of_commitFault hfault a
  obtain ⟨l, c, rfl⟩ := exists_frameBytes hcodes (buildFrame_of_exec hf hc ht hexec hbytes)
  have hmarker : ∀ m ∈ ms, ¬ IsConst m := by
    intro m hm
    obtain rfl | rfl := hms m hm <;> decide
  have hstartOf : startOf s (s.fmt.get a) = constConcat s ks := by
    obtain ⟨m, rest, rfl⟩ := List.exists_cons_of_ne_nil hne
    rw [hfmt, List.append_assoc]
    exact startOf_constCodes ks (hmarker m (by simp))
  have hendOf : endOf s (s.fmt.get a) = constConcat s es := by
    rw [hfmt]
    exact endOf_constCodes ks es hmarker hne
  have hlen : lenCode ∉ s.fmt.get a := of_decide_eq_false hdriven
  obtain ⟨-, hstart, -⟩ := format_of_commitFault hfault hnil
  have hframe : (s.fmt.get a).flatMap (frameBytes s data l c) =
      startOf s (s.fmt.get a) ++ ms.flatMap (frameBytes s data l c) ++ endOf s (s.fmt.get a) := by
    rw [hstartOf, hendOf, hfmt, List.flatMap_append, List.flatMap_append, flatMap_frameBytes_constCodes,
      flatMap_frameBytes_constCodes]
  rw [exec_splitse (s := s.issue _ _) hf hc ht hdriven]
  simp only [if_neg hlen] at hearly ⊢
  refine congrArg (fun r => Host.Outcome.next (State.ended _ r)) (splitSE_of_built hstart ?_ ?_ ?_ hmax hearly)
  · exact hframe ▸ ⟨_, by rw [List.append_assoc]⟩
  · exact hframe ▸ ⟨_, rfl⟩
  · rw [hframe]
    simp only [List.length_append]
    omega

end Sys2Proof.Proofs.BuiltFrames
end

section
/-! PROOFS. Build, then split, for a length-driven template (spec/43_delimiter.md R530; spec/44_staffing.md R606, R607). The
covered tokens' wire bytes are as long as CALCLEN says, counted as the length field counts them. -/

namespace Sys2Proof.Proofs.BuiltLengthFrames

open Sys2Proof.Machine Sys2Proof.Proofs.Commands Sys2Proof.Proofs.Invariants Sys2Proof.Proofs.Compiler
  Sys2Proof.Proofs.Configurations Sys2Proof.Proofs.Frames Sys2Proof.Proofs.Delimiter Sys2Proof.Proofs.LengthField
  Sys2Proof.Proofs.LengthFrames Sys2Proof.Proofs.BuiltFrames

/-! ### The format (R410) -/

section
variable {s : State} {a : Action} {pre covered suf : List Byte}

/-- A length-driven format has its `len#` behind constants only, and no other. -/
theorem len_stands_alone (h : commitFault s = none) (hfmt : s.fmt.get a = pre ++ [lenCode] ++ covered ++ suf) :
    (∀ c ∈ pre, IsConst c) ∧ lenCode ∉ covered ++ suf := by
  obtain ⟨horder, -, -⟩ := format_of_commitFault (a := a) h (by simp [hfmt])
  constructor
  · have hfault := horder pre lenCode (covered ++ suf) (by simp [hfmt])
    rw [orderFault, if_pos rfl, failing_eq_none_iff] at hfault
    simpa using hfault
  · intro hmem
    obtain ⟨l, m, hlm⟩ := List.append_of_mem hmem
    have hfault := horder (pre ++ lenCode :: l) lenCode m (by simp [hfmt, hlm])
    rw [orderFault, if_pos rfl, failing_eq_none_iff] at hfault
    exact hfault ⟨lenCode, by simp, not_isConst_len⟩

theorem behindLen_eq (hpre : ∀ c ∈ pre, IsConst c) (l : List Byte) : behindLen (pre ++ lenCode :: l) = l := by
  rw [behindLen, List.dropWhile_append_of_pos fun c hc => decide_eq_true (ne_marker (hpre c hc)).1]
  simp

theorem startOf_eq (hpre : ∀ c ∈ pre, IsConst c) (l : List Byte) :
    startOf s (pre ++ lenCode :: l) = pre.flatMap fun c => s.constBytes (tokenSlot c) := by
  rw [startOf, List.takeWhile_append_of_pos fun c hc => decide_eq_true (hpre c hc),
    List.takeWhile_cons_of_neg (by simpa using not_isConst_len), List.append_nil]

end

/-! ### The covered tokens (R607, R730) -/

section
variable {s : State} {a : Action} {data : Buffer} {l : Nat}

theorem stuffBy_append (r : StaffRule) (b d : Buffer) : stuffBy r (b ++ d) = stuffBy r b ++ stuffBy r d := by
  simp [Staffing.stuffBy_eq_flatMap]

theorem stuffBy_of_no_pattern {r : StaffRule} {b : Buffer} (h : ∀ x ∈ b, r.has x = false) : stuffBy r b = b := by
  induction b with
  | nil => rfl
  | cons x b ih =>
    obtain ⟨hx, hb⟩ := List.forall_mem_cons.mp h
    rw [Staffing.stuffBy_of_not_has hx, ih hb]

/-- A checksum whose staffed length is counted does not depend on the length (R420 step 6). -/
theorem crcOver_of_not_circular (hcrc : crcCode ∈ s.lenList.get a) (hstaffed : s.crcStaffed = true)
    (hwire : s.lenCountsWire = true) (hen : s.staffEn = true)
    (hcircular : ¬ (crcCode ∈ s.lenList.get a ∧ lenCode ∈ s.crcList.get a ∧ s.lenCountsWire = true ∧
      s.crcStaffed = true ∧ s.staffEn = true)) : crcOver s a data l = crcOver s a data 0 :=
  crcOver_eq_of_not_mem (fun hlen => hcircular ⟨hcrc, hlen, hwire, hstaffed, hen⟩) l 0

/-- Where the length counts wire bytes, or none is staffed, a covered token adds its wire length. -/
theorem frameBytes_length {c : Byte} (hc : c = dataCode ∨ c = crcCode ∨ IsConst c) (hmem : c ∈ s.lenList.get a)
    (hcount : s.lenCountsWire = true ∨ s.rule = none)
    (hcircular : ¬ (crcCode ∈ s.lenList.get a ∧ lenCode ∈ s.crcList.get a ∧ s.lenCountsWire = true ∧
      s.crcStaffed = true ∧ s.staffEn = true)) :
    (frameBytes s data l (crcOver s a data l) c).length = lengthOf s a data c := by
  obtain rfl | rfl | hconst := hc
  · show (stuffing s.rule data).length =
      if s.lenCountsWire then stuffedLength s.rule data else data.length
    rw [stuffing_length]
    obtain h | h := hcount
    · rw [if_pos h]
    · rw [h]
      split <;> rfl
  · show (if s.crcStaffed then stuffing s.rule (crcOver s a data l) else crcOver s a data l).length =
      if s.lenCountsWire && s.crcStaffed then stuffedLength s.rule (crcOver s a data 0) else chkLen s
    cases hrule : s.rule with
    | none => simp [stuffing, stuffedLength]
    | some r =>
      obtain ⟨hen, -⟩ := Staffing.rule_eq_some.mp hrule
      have hwire : s.lenCountsWire = true := hcount.resolve_right (by simp [hrule])
      cases hstaffed : s.crcStaffed with
      | false => simp
      | true =>
        rw [crcOver_of_not_circular hmem hstaffed hwire hen hcircular, hwire, if_pos rfl, stuffing_length]
        rfl
  · obtain ⟨-, hdata, hcrc⟩ := ne_marker hconst
    rw [frameBytes_const hconst]
    exact ((if_neg hdata).trans (if_neg hcrc)).symm

/-- The logical bytes of a covered token. -/
def logicalPart (s : State) (data c : Buffer) (code : Byte) : Buffer :=
  if code = dataCode then data else if code = crcCode then c else s.constBytes (tokenSlot code)

/-- Where the length counts logical bytes, a covered token's wire bytes are its staffed logical ones. -/
theorem frameBytes_eq_stuffBy {r : StaffRule} {c : Byte} {b : Buffer} (hc : c = dataCode ∨ c = crcCode ∨ IsConst c)
    (hrule : s.rule = some r) (hcrc : c = crcCode → s.crcStaffed = true)
    (hconst : IsConst c → ∀ x ∈ s.constBytes (tokenSlot c), r.has x = false) :
    frameBytes s data l b c = stuffBy r (logicalPart s data b c) := by
  obtain rfl | rfl | hk := hc
  · show stuffing s.rule data = _
    rw [hrule]
    rfl
  · show (if s.crcStaffed then stuffing s.rule b else b) = _
    rw [if_pos (hcrc rfl), hrule]
    rfl
  · obtain ⟨-, hdata, hcrc⟩ := ne_marker hk
    rw [frameBytes_const hk, logicalPart, if_neg hdata, if_neg hcrc, stuffBy_of_no_pattern (hconst hk)]

theorem logicalPart_length {c : Byte} (hc : c = dataCode ∨ c = crcCode ∨ IsConst c) (hwire : s.lenCountsWire = false) :
    (logicalPart s data (crcOver s a data l) c).length = lengthOf s a data c := by
  obtain rfl | rfl | hk := hc
  · show data.length = if s.lenCountsWire then stuffedLength s.rule data else data.length
    rw [hwire]
    rfl
  · show (crcOver s a data l).length =
      if s.lenCountsWire && s.crcStaffed then stuffedLength s.rule (crcOver s a data 0) else chkLen s
    rw [hwire, crcOver_length]
    rfl
  · obtain ⟨-, hdata, hcrc⟩ := ne_marker hk
    rw [logicalPart, if_neg hdata, if_neg hcrc]
    exact ((if_neg hdata).trans (if_neg hcrc)).symm

/-- The covered span: so many bytes as the length says, on the wire staffed unless it counts wire bytes. -/
theorem exists_coveredSpan {covered : List Byte} (hcodes : ∀ c ∈ covered, c = dataCode ∨ c = crcCode ∨ IsConst c)
    (hmem : ∀ c ∈ covered, c ∈ s.lenList.get a)
    (hlogical : s.lenCountsWire = false → ∀ r, s.rule = some r →
      (∀ k, tokenCode (.const k) ∈ covered → ∀ b ∈ s.constBytes k, r.has b = false) ∧
      (crcCode ∈ covered → s.crcStaffed = true))
    (hcircular : ¬ (crcCode ∈ s.lenList.get a ∧ lenCode ∈ s.crcList.get a ∧ s.lenCountsWire = true ∧
      s.crcStaffed = true ∧ s.staffEn = true)) :
    ∃ d, d.length = (covered.map (lengthOf s a data)).sum ∧
      covered.flatMap (frameBytes s data l (crcOver s a data l)) = wirePart s (!s.lenCountsWire) d := by
  have hplain (hcount : s.lenCountsWire = true ∨ s.rule = none) :
      (covered.flatMap (frameBytes s data l (crcOver s a data l))).length = (covered.map (lengthOf s a data)).sum := by
    rw [List.length_flatMap]
    congr 1
    exact List.map_congr_left fun c hc => frameBytes_length (hcodes c hc) (hmem c hc) hcount hcircular
  cases hwire : s.lenCountsWire with
  | true => exact ⟨_, hplain (.inl hwire), rfl⟩
  | false =>
    cases hrule : s.rule with
    | none => exact ⟨_, hplain (.inr hrule), by rw [wirePart, hrule]; rfl⟩
    | some r =>
      obtain ⟨hconst, hcrc⟩ := hlogical hwire r hrule
      refine ⟨covered.flatMap (logicalPart s data (crcOver s a data l)), ?_, ?_⟩
      · rw [List.length_flatMap]
        congr 1
        exact List.map_congr_left fun c hc => logicalPart_length (hcodes c hc) hwire
      · rw [wirePart, hrule]
        show _ = stuffBy r _
        rw [Staffing.stuffBy_eq_flatMap, List.flatMap_assoc]
        refine List.flatMap_congr fun c hc => ?_
        rw [← Staffing.stuffBy_eq_flatMap]
        refine frameBytes_eq_stuffBy (hcodes c hc) hrule (fun h => hcrc (h ▸ hc)) fun hk => ?_
        exact hconst (tokenSlot c) (by rwa [tokenCode_tokenSlot hk])

end

/-! ### The suffix (R520, R606) -/

section
variable {s : State} {t : Template} {data c : Buffer} {l : Nat} {eos : Bool}

/-- A suffix token's wire bytes are those of the part that SPLITLEN passes for it. -/
theorem exists_suffixPart {code : Byte} (hcode : code = crcCode ∨ IsConst code) (hc : c.length = chkLen s) :
    ∃ d, d.length = (suffixPart s (suffixAs code)).1 ∧
      frameBytes s data l c code = wirePart s (suffixPart s (suffixAs code)).2 d := by
  obtain rfl | hk := hcode
  · exact ⟨c, hc, rfl⟩
  · obtain ⟨-, hdata, hcrc⟩ := ne_marker hk
    refine ⟨s.constBytes (tokenSlot code), ?_, ?_⟩ <;> rw [suffixAs, if_neg hdata, if_neg hcrc]
    · rfl
    · exact frameBytes_const hk

theorem passField_wirePart {staffed : Bool} {pre d rest : Buffer}
    (hmax : pre.length + (wirePart s staffed d).length ≤ s.maxFrame) :
    (splitCtx s t (pre ++ wirePart s staffed d ++ rest) eos).passField d.length staffed pre.length =
      .ok (pre.length + (wirePart s staffed d).length) := by
  rw [SplitCtx.passField, field_wirePart hmax]

/-- The suffix's wire bytes are passed. -/
theorem suffix_wire {suf : List Byte} (hsuf : ∀ code ∈ suf, code = crcCode ∨ IsConst code) (hc : c.length = chkLen s)
    (pre rest : Buffer) (hmax : pre.length + (suf.flatMap (frameBytes s data l c)).length ≤ s.maxFrame) :
    (splitCtx s t (pre ++ suf.flatMap (frameBytes s data l c) ++ rest) eos).suffix s (suf.map suffixAs) pre.length =
      .ok (pre.length + (suf.flatMap (frameBytes s data l c)).length) := by
  induction suf generalizing pre with
  | nil => rfl
  | cons code suf ih =>
    obtain ⟨hcode, hsuf⟩ := List.forall_mem_cons.mp hsuf
    obtain ⟨d, hd, hwire⟩ := exists_suffixPart (data := data) (l := l) hcode hc
    simp only [List.flatMap_cons, List.length_append] at hmax ⊢
    have hpart := passField_wirePart (s := s) (t := t) (eos := eos) (pre := pre) (d := d)
      (rest := suf.flatMap (frameBytes s data l c) ++ rest) (staffed := (suffixPart s (suffixAs code)).2)
      (by rw [← hwire]; omega)
    have hrest := ih hsuf (pre ++ frameBytes s data l c code) (by rw [List.length_append]; omega)
    rw [← hwire, hd] at hpart
    simp only [List.append_assoc, List.length_append, Nat.add_assoc] at hpart hrest ⊢
    rw [List.map_cons, SplitCtx.suffix, suffixToken_eq, hpart]
    exact hrest

end

/-! ### The frame -/

section
variable {s : State} {a : Action} {t : Template} {data x : Buffer} {l : Nat} {eos : Bool} {covered suf : List Byte}

/-- The parts of a built frame are read back, one behind the other. -/
theorem frameLength_built {f c d : Buffer} (hf : f = t.start ++ frameBytes s data l c lenCode ++
      covered.flatMap (frameBytes s data l c) ++ suf.flatMap (frameBytes s data l c))
    (hl : l < 2 ^ (8 * s.lenWidth)) (hd : d.length = l)
    (hspan : covered.flatMap (frameBytes s data l c) = wirePart s (!s.lenCountsWire) d)
    (hsuf : ∀ code ∈ suf, code = crcCode ∨ IsConst code) (hc : c.length = chkLen s)
    (hsuffix : t.suffix = suf.map suffixAs) (hmax : f.length ≤ s.maxFrame) :
    (splitCtx s t (f ++ x) eos).frameLength s t = .ok f.length := by
  have hlen : frameBytes s data l c lenCode = wirePart s s.lenStaffed (bytesOf s.lord s.lenWidth l) := rfl
  have hvalue : uintOf s.lord (bytesOf s.lord s.lenWidth l) = l := Values.uintOf_bytesOf_of_lt s.lord hl
  rw [hspan, hlen] at hf
  have hflen := congrArg List.length hf
  simp only [List.length_append] at hflen
  have hfield := field_wirePart (s := s) (t := t) (eos := eos) (pre := t.start) (d := bytesOf s.lord s.lenWidth l)
    (rest := wirePart s (!s.lenCountsWire) d ++ suf.flatMap (frameBytes s data l c) ++ x) (staffed := s.lenStaffed)
    (by omega)
  have hcovered := passField_wirePart (s := s) (t := t) (eos := eos)
    (pre := t.start ++ wirePart s s.lenStaffed (bytesOf s.lord s.lenWidth l)) (d := d)
    (rest := suf.flatMap (frameBytes s data l c) ++ x) (staffed := !s.lenCountsWire)
    (by rw [List.length_append]; omega)
  have hrest := suffix_wire (t := t) (eos := eos) (data := data) (l := l) hsuf hc
    (t.start ++ wirePart s s.lenStaffed (bytesOf s.lord s.lenWidth l) ++ wirePart s (!s.lenCountsWire) d) x
    (by rw [List.length_append, List.length_append]; omega)
  rw [Values.bytesOf_length] at hfield
  rw [hd] at hcovered
  rw [← hsuffix] at hrest
  simp only [List.append_assoc, List.length_append, Nat.add_assoc] at hf hfield hcovered hrest
  rw [hf, SplitCtx.frameLength]
  simp only [List.append_assoc, List.length_append, show ∀ buf, (splitCtx s t buf eos).startLen = t.start.length from
    fun _ => rfl, hfield, span_eq, hvalue, hcovered, hrest]

end

/-- CALCLEN's answer for a format that is built. -/
theorem calcLen_of_buildFrame {s : State} {a : Action} {data f : Buffer} (hlen : lenCode ∈ s.fmt.get a)
    (hbuild : buildFrame s a data = .ok f) : ∃ l, calcLen s a data = .ok l := by
  cases hcalc : calcLen s a data with
  | ok l => exact ⟨l, rfl⟩
  | error e =>
    rw [buildFrame, buildLen, if_pos (.inl hlen), hcalc] at hbuild
    cases hbuild

/-- A frame that is measured to its end is cut off what follows it. -/
theorem splitLen_of_frameLength {s : State} {t : Template} {f x : Buffer} {eos : Bool} (hstart : t.start ≠ [])
    (hprefix : t.start <+: f) (h : (splitCtx s t (f ++ x) eos).frameLength s t = .ok f.length) :
    exitResult (splitLen s t (f ++ x) eos) =
      { adv := some f.length, frame := some (some f), isFinal := some (eos && x = []) } := by
  have hfinal : decide (f.length = (f ++ x).length) = decide (x = []) := by simp
  rw [splitLen, startPhase_of_prefix hstart (hprefix.trans (List.prefix_append f x))]
  dsimp only
  rw [seekLength, h]
  dsimp only
  rw [exitResult_frame, frameRecord, List.take_left, hfinal]

/-! ### The obligation -/

/-- Settles O48. -/
theorem builtFrameSplitsByLength : Obligations.BuiltFrameSplitsByLength := by
  intro s u eos a t data f x pre covered suf hs hf ht hdriven hfmt hcovered hsuf hperm hlogical hexec hbytes hmax
  have hc := committed_of_template hs ht
  obtain ⟨hfault, htemplates⟩ := commitFault_of_committed hs hc
  obtain ⟨hnil, rfl⟩ := templateOf_eq_some ((htemplates a).symm.trans ht)
  obtain ⟨hcodes, hlens, -⟩ := lists_of_commitFault hfault a
  obtain ⟨-, hstart, -⟩ := format_of_commitFault hfault hnil
  obtain ⟨-, -, hcircular⟩ := global_of_commitFault hfault hnil
  obtain ⟨hpre, hlen⟩ := len_stands_alone hfault hfmt
  have hbuild := buildFrame_of_exec hf hc ht hexec hbytes
  obtain ⟨l, hcalc⟩ := calcLen_of_buildFrame (by simp [hfmt]) hbuild
  have hcoveredCodes : ∀ c ∈ covered, c = dataCode ∨ c = crcCode ∨ IsConst c := fun c h => hlens c (hcovered c h)
  obtain ⟨d, hd, hspan⟩ := exists_coveredSpan (data := data) (l := l) hcoveredCodes hcovered hlogical hcircular
  have hl : d.length = l := by
    rw [calcLen_eq hlens, (hperm.map _).sum_eq, ← hd] at hcalc
    split at hcalc <;> cases hcalc
    rfl
  have hfmt : s.fmt.get a = pre ++ lenCode :: (covered ++ suf) := by simpa using hfmt
  have hbehind : behindLen (s.fmt.get a) = covered ++ suf := by rw [hfmt, behindLen_eq hpre]
  have hsufCodes : ∀ c ∈ suf, c = crcCode ∨ IsConst c := by
    intro c h
    have hdata := ne_data_of_mem_behindLen hfault hnil (hbehind ▸ List.mem_append_right covered h) (hsuf c h)
    obtain rfl | h' | h' := hcodes c (by simp [hfmt, h])
    · exact absurd (List.mem_append_right covered h) hlen
    · exact absurd h' hdata
    · exact h'
  have hsuffix : ((behindLen (s.fmt.get a)).filter (· ∉ s.lenList.get a)).map suffixAs = suf.map suffixAs := by
    rw [hbehind, List.filter_append, List.filter_eq_nil_iff.mpr fun c h => by simpa using hcovered c h,
      List.filter_eq_self.mpr fun c h => decide_eq_true (hsuf c h), List.nil_append]
  have hframe : f = startOf s (s.fmt.get a) ++ frameBytes s data l (crcOver s a data l) lenCode ++
      covered.flatMap (frameBytes s data l (crcOver s a data l)) ++
      suf.flatMap (frameBytes s data l (crcOver s a data l)) := by
    have hpreBytes : pre.flatMap (frameBytes s data l (crcOver s a data l)) = startOf s (s.fmt.get a) := by
      rw [hfmt, startOf_eq hpre]
      exact List.flatMap_congr fun c h => frameBytes_const (hpre c h)
    rw [buildFrame_of_calcLen hcodes hcalc] at hbuild
    rw [← hpreBytes, ← Except.ok.inj hbuild, hfmt]
    simp
  rw [exec_splitlen (s := s.issue _ _) hf hc ht hdriven]
  refine congrArg (fun r => Host.Outcome.next (State.ended _ r)) ?_
  refine (congrArg exitResult (splitLen_withHost s s.result _ s.loop _ _ eos)).trans ?_
  refine splitLen_of_frameLength hstart ⟨_, by rw [hframe, List.append_assoc, List.append_assoc]⟩ ?_
  exact frameLength_built hframe (lt_of_calcLen hcalc) hl hspan hsufCodes (crcOver_length s a data l) hsuffix hmax

end Sys2Proof.Proofs.BuiltLengthFrames
end

section
/-! PROOFS. The host's read loop at end of stream (spec/43_delimiter.md R530, R540). Each round of the loop is a split
command of three steps and, after a frame, the frame's delivery; a round that does not stop the loop drops at least one
byte of the stream (`SplitLaws.splitter_result`), so the stream's length bounds the rounds. -/

namespace Sys2Proof.Proofs.ReadLoopEnd

open Sys2Proof.Machine Sys2Proof.Proofs.Commands Sys2Proof.Proofs.Invariants Sys2Proof.Proofs.Commit
  Sys2Proof.Proofs.LengthFrames Sys2Proof.Proofs.SplitLaws

/-! ### Runs and the split commands issued on them -/

/-- k steps lead from s to t, and the host's loop issues m split commands on the way. -/
inductive Leads : Nat → Nat → State → State → Prop
  | refl (s : State) : Leads 0 0 s s
  /-- A step that issues a split command. -/
  | issue {k m : Nat} {s t u : State} (hp : s.pending = []) (hphase : s.loop.phase = .issue) (h : step s = .next u)
    (hu : Leads k m u t) : Leads (k + 1) (m + 1) s t
  /-- A step that issues none. -/
  | other {k m : Nat} {s t u : State} (hs : s.pending = [] → s.loop.phase ≠ .issue) (h : step s = .next u)
    (hu : Leads k m u t) : Leads (k + 1) m s t

theorem run_of_leads {k m : Nat} {s t : State} (h : Leads k m s t) :
    Sys2Proof.core.run k s = .next t ∧ splitsIssued k s = m := by
  induction h with
  | refl s => exact ⟨rfl, rfl⟩
  | issue hp hphase h _ ih =>
    obtain ⟨hrun, hsplits⟩ := ih
    refine ⟨(run_succ _ h).trans hrun, ?_⟩
    rw [splitsIssued, h, if_pos ⟨hp, hphase⟩, ← hsplits, Nat.add_comm]
  | other hs h _ ih =>
    obtain ⟨hrun, hsplits⟩ := ih
    refine ⟨(run_succ _ h).trans hrun, ?_⟩
    rw [splitsIssued, h, if_neg (not_and.mpr hs), ← hsplits, Nat.zero_add]

theorem leads_trans {k m k' m' : Nat} {s t u : State} (h : Leads k m s u) (h' : Leads k' m' u t) :
    Leads (k + k') (m + m') s t := by
  induction h with
  | refl s => rwa [Nat.zero_add, Nat.zero_add]
  | issue hp hphase h _ ih =>
    rw [Nat.add_right_comm, Nat.add_right_comm _ 1]
    exact .issue hp hphase h (ih h')
  | other hs h _ ih =>
    rw [Nat.add_right_comm]
    exact .other hs h (ih h')

/-! ### One command of the loop -/

section
variable {s : State}

/-- A command of the loop, issued alone, writes its result record and nothing else. -/
theorem step_answers {i : Instr} {o : Operands} (hi : isConfiguring i = false) (hreset : i ≠ .reset)
    (hp : s.pending = [{ word := encode i, operands := o }]) :
    ∃ r, step s = .next (withHost s r [] s.loop) ∧ exec i s = .next (s.ended r) := by
  obtain ⟨t, hexec, -⟩ := everyStepCompletes.2 i s
  have ht := otherCommandsKeepRegisters i s t hi hreset hexec
  rw [ht] at hexec
  refine ⟨t.result, ?_, hexec⟩
  rw [step_command hp, hexec, State.ended, hp]
  rfl

theorem onResult_phase (l : ReadLoop) (p : LoopPhase) (r : Result) :
    ({ l with phase := p } : ReadLoop).onResult r = l.onResult r := by
  unfold ReadLoop.onResult
  split <;> rfl

/-- The loop's split command is a splitter of its action, on its stream. -/
theorem exists_splitter (s : State) (a : Action) (eos : Bool) (buf : Buffer) :
    ∃ i, (i = .splitse eos a ∨ i = .splitlen eos a) ∧
      splitCommand s a eos buf = { word := encode i, operands := { buf := buf } } := by
  unfold splitCommand
  split
  · exact ⟨_, .inr rfl, rfl⟩
  · exact ⟨_, .inl rfl, rfl⟩

/-- The loop issues its split command, the FDC executes it, and the host reads its result record. -/
theorem leads_split (hs : s.Consistent) (hp : s.pending = []) (hphase : s.loop.phase = .issue) :
    ∃ r, Leads 3 1 s (withHost s r [] (s.loop.onResult r)) ∧
      (r.status = .ok → ∃ t, SplitResult t s.maxFrame s.loop.eos s.loop.stream r) := by
  obtain ⟨i, hi, hcommand⟩ := exists_splitter s s.loop.action s.loop.eos s.loop.stream
  have hissue : step s = .next s.loopIssue := by rw [step_host hp, State.hostStep, hphase]
  have hpending : s.loopIssue.pending = [{ word := encode i, operands := { buf := s.loop.stream } }] :=
    congrArg (fun c => [c]) hcommand
  have hkind : isConfiguring i = false ∧ i ≠ .reset := by
    obtain rfl | rfl := hi <;> exact ⟨rfl, nofun⟩
  obtain ⟨r, hanswer, hexec⟩ := step_answers hkind.1 hkind.2 hpending
  have hread : step (withHost s.loopIssue r [] s.loopIssue.loop) = .next (withHost s r [] (s.loop.onResult r)) := by
    rw [step_host rfl, ← onResult_phase s.loop .await]
    rfl
  refine ⟨r, ?_, fun hok => ?_⟩
  · refine Leads.issue hp hphase hissue (Leads.other (fun h => ?_) hanswer (Leads.other nofun hread (.refl _)))
    rw [hpending] at h
    cases h
  · obtain ⟨t, -, hresult⟩ := splitter_result (s := s.loopIssue) hs hi hexec hok
    have hbuf : s.loopIssue.operands.buf = s.loop.stream := by rw [State.operands, hpending]
    rw [hbuf] at hresult
    exact ⟨t, hresult⟩

end

/-! ### The delivery of a frame -/

section
variable {s : State} {d : Delivery}

/-- The host issues a CHECK or a VERIFY, the FDC executes it, and the host keeps its result record. -/
theorem leads_test {i : Instr} {o : Operands} {d' : Delivery} {p : LoopPhase} (hi : isConfiguring i = false)
    (hreset : i ≠ .reset) (hp : s.pending = []) (hphase : s.loop.phase = .deliver d)
    (hissue : s.loopDeliver d = withHost s s.result [{ word := encode i, operands := o }] { s.loop with phase := p })
    (hawait : p = .awaitCheck d' ∨ p = .awaitVerify d') :
    ∃ r, Leads 3 0 s (withHost s r [] (s.loop.onVerdict d' r)) := by
  have hstep : step s = .next (s.loopDeliver d) := by rw [step_host hp, State.hostStep, hphase]
  rw [hissue] at hstep
  obtain ⟨r, hanswer, -⟩ := step_answers (s := withHost s s.result [{ word := encode i, operands := o }] _) hi hreset rfl
  refine ⟨r, Leads.other (fun _ => by rw [hphase]; exact nofun) hstep (Leads.other nofun hanswer ?_)⟩
  obtain rfl | rfl := hawait <;> exact Leads.other nofun (step_host rfl) (.refl _)

/-- s with the frame of d dropped from the stream (R540), beside result record r and the verdicts v. -/
def dropped (s : State) (d : Delivery) (r : Result) (v : List Result) : State :=
  withHost s r [] (({ s.loop with verdicts := v } : ReadLoop).endDelivery d)

/-- A frame without tests to come is dropped from the stream. -/
theorem leads_drop (hp : s.pending = []) (hphase : s.loop.phase = .deliver d) (htodo : d.todo = [])
    (hverify : d.verify = false) : Leads 1 0 s (dropped s d s.result s.loop.verdicts) := by
  have hstep : step s = .next (dropped s d s.result s.loop.verdicts) := by
    rw [step_host hp, State.hostStep, hphase]
    dsimp only
    rw [State.loopDeliver, htodo, hverify, dropped, ← hp]
    rfl
  exact .other (fun _ => by rw [hphase]; exact nofun) hstep (.refl _)

/-- The VERIFY of a frame, if the host asks for one, and the frame's drop. -/
theorem leads_verify (hp : s.pending = []) (hphase : s.loop.phase = .deliver d) (htodo : d.todo = []) :
    ∃ r v, Leads ((if d.verify then 3 else 0) + 1) 0 s (dropped s d r v) := by
  cases hverify : d.verify with
  | false => exact ⟨_, _, leads_drop hp hphase htodo hverify⟩
  | true =>
    obtain ⟨r, h⟩ := leads_test (i := .verify s.loop.action) (d' := { d with verify := false }) rfl nofun hp hphase
      (by rw [State.loopDeliver, htodo, hverify]; rfl) (.inr rfl)
    exact ⟨_, _, leads_trans h (leads_drop rfl rfl htodo rfl)⟩

/-- A frame is delivered: its tests write verdicts, and then it is dropped from the stream. -/
theorem leads_delivery (hp : s.pending = []) (hphase : s.loop.phase = .deliver d) :
    ∃ r v, Leads (3 * d.todo.length + (if d.verify then 3 else 0) + 1) 0 s (dropped s d r v) := by
  induction htodo : d.todo generalizing s d with
  | nil =>
    obtain ⟨r, v, h⟩ := leads_verify hp hphase htodo
    exact ⟨r, v, by simpa using h⟩
  | cons f rest ih =>
    obtain ⟨r, h⟩ := leads_test (i := .check f.ord f.grid) (d' := { d with todo := rest }) rfl nofun hp hphase
      (by rw [State.loopDeliver, htodo]; rfl) (.inl rfl)
    obtain ⟨r', v, h'⟩ := ih (s := withHost s r [] (s.loop.onVerdict { d with todo := rest } r)) rfl rfl rfl
    refine ⟨r', v, ?_⟩
    have hsteps : 3 * (f :: rest).length = 3 + 3 * rest.length := by rw [List.length_cons]; omega
    rw [hsteps, Nat.add_assoc, Nat.add_assoc 3, ← Nat.add_assoc (3 * rest.length)]
    exact leads_trans h h'

end

/-! ### The rounds of the loop -/

/-- The loop runs from s to its stop: m split commands in all, and a delivery for each frame. -/
def Stops (s : State) : Prop :=
  ∃ k m t e frames, Leads k m s t ∧ t.loop.phase = .stopped e ∧ m ≤ s.loop.stream.length + 1 ∧
    t.loop.delivered = s.loop.delivered ++ frames ∧ k = 3 * m + deliverySteps s.loop.tests * frames.length

section
variable {s u : State} {frames : List Buffer}

/-- A round with the given frames that stops the loop. -/
theorem stops_of_stopped {e : LoopEnd} (h : Leads (3 + deliverySteps s.loop.tests * frames.length) 1 s u)
    (hstop : u.loop.phase = .stopped e) (hdelivered : u.loop.delivered = s.loop.delivered ++ frames) : Stops s :=
  ⟨_, 1, u, e, frames, h, hstop, Nat.le_add_left 1 _, hdelivered, rfl⟩

/-- A round with the given frames that drops a byte or more, after which the loop runs to its stop. -/
theorem stops_of_stops (h : Leads (3 + deliverySteps s.loop.tests * frames.length) 1 s u)
    (hstream : u.loop.stream.length < s.loop.stream.length)
    (hdelivered : u.loop.delivered = s.loop.delivered ++ frames) (htests : u.loop.tests = s.loop.tests)
    (hu : Stops u) : Stops s := by
  obtain ⟨k, m, t, e, later, hleads, hstop, hm, hlater, hk⟩ := hu
  refine ⟨_, _, t, e, frames ++ later, leads_trans h hleads, hstop, by omega, ?_, ?_⟩
  · rw [hlater, hdelivered, List.append_assoc]
  · rw [hk, htests, List.length_append]
    ring

theorem onResult_of_not_ok {l : ReadLoop} {r : Result} (h : r.status ≠ .ok) :
    ∃ e v, l.onResult r = { l with phase := .stopped e, verdicts := v } := by
  unfold ReadLoop.onResult
  split
  · next hok _ => exact absurd hok h
  · next hok _ => exact absurd hok h
  · exact ⟨_, _, rfl⟩
  · exact ⟨_, _, rfl⟩

/-- A frame of n bytes is delivered and dropped from the stream. -/
theorem leads_frame {n : Nat} (h : Leads 3 1 s (withHost s (frameRecord true s.loop.stream n) []
      (s.loop.onResult (frameRecord true s.loop.stream n)))) :
    ∃ u, Leads (3 + deliverySteps s.loop.tests * [s.loop.stream.take n].length) 1 s u ∧ s.SameRegisters u ∧
      u.pending = [] ∧ (u.loop.phase = .stopped .final ∨ u.loop.phase = .issue) ∧ u.loop.eos = s.loop.eos ∧
      u.loop.stream = s.loop.stream.drop n ∧ u.loop.tests = s.loop.tests ∧
      u.loop.delivered = s.loop.delivered ++ [s.loop.stream.take n] := by
  let x := frameRecord true s.loop.stream n
  let d := s.loop.tests.delivery (s.loop.stream.take n) x
  let s' := withHost s x [] (s.loop.onResult x)
  obtain ⟨r, v, hdelivery⟩ := leads_delivery (s := s') (d := d) rfl rfl
  refine ⟨dropped s' d r v, ?_, sameRegisters_withHost s _ _ _, rfl, ?_, rfl, rfl, rfl, rfl⟩
  · rw [List.length_singleton, Nat.mul_one]
    exact leads_trans h hdelivery
  · show (if d.isFinal then LoopPhase.stopped .final else .issue) = _ ∨ (if d.isFinal then _ else LoopPhase.issue) = _
    split
    · exact .inl rfl
    · exact .inr rfl

end

theorem stops_at_end_of_stream {s : State} (hs : s.Consistent) (hp : s.pending = []) (hphase : s.loop.phase = .issue)
    (heos : s.loop.eos = true) : Stops s := by
  induction hn : s.loop.stream.length using Nat.strong_induction_on generalizing s with
  | _ n ih =>
  obtain ⟨r, hround, hresult⟩ := leads_split hs hp hphase
  by_cases hok : r.status = .ok
  · obtain ⟨t, hresult⟩ := hresult hok
    rw [heos] at hresult
    cases hresult with
    | incomplete => cases hok
    | @passed d fin hd hprogress =>
      cases fin with
      | true => exact stops_of_stopped (frames := []) hround rfl (List.append_nil _).symm
      | false =>
        have hpos : 0 < d := (hprogress rfl).resolve_right nofun
        have hloop : s.loop.onResult { adv := some d, frame := some none, isFinal := some false } =
            { s.loop with phase := .issue, stream := s.loop.stream.drop d } := if_neg hpos.ne'
        rw [hloop] at hround
        have hlt : (s.loop.stream.drop d).length < s.loop.stream.length := by rw [List.length_drop]; omega
        exact stops_of_stops (frames := []) hround hlt (List.append_nil _).symm rfl (ih _ (hn ▸ hlt) hs rfl rfl heos rfl)
    | @frame k hpos hbuf =>
      obtain ⟨u, hframe, hregs, hpending, hstop | hissue, hueos, hstream, htests, hdelivered⟩ := leads_frame hround
      · exact stops_of_stopped hframe hstop hdelivered
      · have hlt : u.loop.stream.length < s.loop.stream.length := by rw [hstream, List.length_drop]; omega
        exact stops_of_stops hframe hlt hdelivered htests
          (ih _ (hn ▸ hlt) (consistent_of_sameRegisters hregs hs) hpending hissue (hueos.trans heos) rfl)
  · obtain ⟨e, v, hloop⟩ := onResult_of_not_ok (l := s.loop) hok
    rw [hloop] at hround
    exact stops_of_stopped (frames := []) hround rfl (List.append_nil _).symm

/-- Settles O60. -/
theorem readLoopEndsAfterEndOfStream : Obligations.ReadLoopEndsAfterEndOfStream := by
  intro s hs hp hphase heos
  obtain ⟨k, m, t, e, frames, hleads, hstop, hm, hdelivered, hk⟩ := stops_at_end_of_stream hs hp hphase heos
  obtain ⟨hrun, rfl⟩ := run_of_leads hleads
  exact ⟨k, t, e, frames, hrun, hstop, hm, hdelivered, hk⟩

end Sys2Proof.Proofs.ReadLoopEnd
end
